-- ==== Sys2Proof/Word.lean ====
section
/-! DEFINITION. The words of the Ostlin 4216: bytes on the chain, 16-bit fields, 24-bit tick counts, 32-bit totals. -/

namespace Sys2Proof

/-- One byte of a chain frame (R178). -/
abbrev Byte := BitVec 8

/-- A 16-bit field: a position, a cycle number, a sequence number, a 16-bit counter. -/
abbrev Word := BitVec 16

/-- A 24-bit count of ticks: the period timer and what is read from it (R90, R92). -/
abbrev Ticks := BitVec 24

/-- A 32-bit count that wraps: the valid-sample totals and the frames-forwarded counters (R8, R189). -/
abbrev Count := BitVec 32

/-- The strap address sampled from ADDR4..ADDR0 (R193). -/
abbrev Strap := BitVec 5

end Sys2Proof
end

