-- ==== Sys2Proof/Syntax.lean ====
section
/-! DEFINITION. The commands of the part: one constructor per row of the opcode table, with what each carries. -/

namespace Sys2Proof

/-- A run of bytes as a receiver delivers it between two idle intervals, with the receiver's framing-error mark
(R192), and whether the receiver saw the run's start before the initialisation period began (R190). A run longer than 255
bytes is carried whole here; the part stores none of it (R180). That commands carry whole runs with their marks is a DESIGN
CHOICE, unsafe (log 9). -/
structure Run where
  bytes : List Byte
  framingError : Bool
  early : Bool := false
deriving DecidableEq, Repr

/-- The commands: the happenings of the part, each whole and indivisible. -/
inductive Instr where
  /-- POWER_ON: both supplies are within limits, CLKIN has run `clkinTicks` ticks, and the strap pins read `straps`
  (R193, R194). -/
  | powerOn (straps : Strap) (clkinTicks : Nat)
  /-- RESET_ENTRY: RESET_N has been found low on the last `lowTicks` consecutive ticks (R194). -/
  | resetEntry (lowTicks : Nat)
  /-- RESET_RELEASE: the first tick with RESET_N high again; the strap pins read `straps` (R193, R194). -/
  | resetRelease (straps : Strap)
  /-- INITIALISATION_END: the 1000-tick initialisation period runs out (R190). -/
  | initialisationEnd
  /-- FRAME_RECEIVED_CP: the CP receiver delivers a run (R182, R184). -/
  | frameReceivedCp (run : Run)
  /-- FRAME_RECEIVED_SP: the SP receiver delivers a run (R183, R185). -/
  | frameReceivedSp (run : Run)
  /-- FRAME_SENT_CP: transmission of the head inbound frame at CP completes (R187). -/
  | frameSentCp
  /-- FRAME_SENT_SP: transmission of the head outbound frame at SP completes (R184). -/
  | frameSentSp
  /-- OPEN_HOLD_RELEASE: a held OPEN is handed, a departure at CP having brought the end frames down to 3 (R185). -/
  | openHoldRelease
  /-- CLOSE_DEADLINE_EXPIRY: the close-deadline timer runs out (R87). -/
  | closeDeadlineExpiry
  /-- PERIOD_MAXIMUM_EXPIRY: the period timer reaches the period maximum (R90, R91). -/
  | periodMaximumExpiry
  /-- CAPTURE_EDGE: a qualified rising edge on CAPTURE (R92, R93, R195). -/
  | captureEdge
  /-- READ_ENTRY executes (R138, R167). -/
  | readEntry
  /-- WRITE_SHADOW executes (R135, R168). -/
  | writeShadow
  /-- SYNC_SHADOW executes (R137). -/
  | syncShadow
  /-- COMMIT executes (R140). -/
  | commit
  /-- ABORT_COMMIT executes (R143). -/
  | abortCommit
  /-- SET_MODE executes (R150). -/
  | setMode
  /-- ACK_EVENT executes (R62, R63). -/
  | ackEvent
  /-- ACK_CHANNEL executes (R43). -/
  | ackChannel
  /-- READ_CHANNEL executes (R171). -/
  | readChannel
  /-- READ_STATUS executes (R172). -/
  | readStatus
  /-- CLEAR_COUNTERS executes (R173). -/
  | clearCounters
  /-- RESTART executes (R174). -/
  | restart
  /-- A request of an unknown kind executes (R162). -/
  | unknownRequest
  /-- CAPTURE_LINE_CHANGE: CAPTURE is found high or low, and that sample moves the qualifier (R195). -/
  | captureLineChange (high : Bool)
  /-- SUPPLY_OUT_OF_LIMITS: a supply leaves its limits (R194). -/
  | supplyOutOfLimits
deriving DecidableEq, Repr

end Sys2Proof
end

