-- ==== Sys2Proof/Decode.lean ====
section
/-! DEFINITION. The command a table word spells. The opcode table gives its rows no bits, so no word spells one. -/

namespace Sys2Proof

/-- The command spelled by a word of the opcode table's bits: no row of the table has bits, so there is none: DEDUCED, safe (log 16). -/
def decodeTableWord (nbits w : Nat) : Option Instr :=
  let _ := nbits
  let _ := w
  none

end Sys2Proof
end

