-- ==== Sys2Proof/Config.lean ====
section
/-! DEFINITION. The fixed sizes and tick counts the data sheet gives the part. Nothing in the part is left to an
implementation and no value is left undefined, so there is no free value here. -/

namespace Sys2Proof.Config

/-- Places of the outbound relay buffer (R184). -/
abbrev outboundPlaces : Nat := 4

/-- Places of the inbound relay buffer (R185). -/
abbrev inboundPlaces : Nat := 8

/-- Most forwarded frames the inbound relay buffer admits (R185). -/
abbrev forwardedPlaces : Nat := 6

/-- An OPEN is handed while at most this many end frames occupy inbound places (R185). -/
abbrev openHoldLimit : Nat := 3

/-- Longest run a receiver stores; a longer one cannot be relayed (R180). -/
abbrev longestRun : Nat := 255

/-- Longest body of a well-formed frame (R178). -/
abbrev longestBody : Nat := 250

/-- Capacity of the Event Queue (R104, R106). -/
abbrev eventCapacity : Nat := 48

/-- Event items a REPORT can carry (R119). -/
abbrev reportEvents : Nat := 8

/-- Response items a REPORT can carry (R119). -/
abbrev reportResponses : Nat := 2

/-- Sendings after which an unacknowledged item is abandoned (R115). -/
abbrev mostSendings : Nat := 4

/-- Holding slots of the Command Unit (R155). -/
abbrev holdingSlots : Nat := 2

/-- Response credits (R156). -/
abbrev credits : Nat := 4

/-- Length of the initialisation period in ticks (R190, R194). -/
abbrev initialisationTicks : Nat := 1000

/-- Ticks CLKIN has run, with both supplies within limits, when power-on ends (R194). -/
abbrev powerOnTicks : Nat := 1000

/-- Consecutive low ticks of RESET_N that put the part in reset (R194). -/
abbrev resetLowTicks : Nat := 10

/-- High samples of CAPTURE that qualify an edge (R195). -/
abbrev captureSamples : Nat := 3

/-- Latest tick at which an accepted request has executed (R196). -/
abbrev requestTicks : Nat := 500

/-- Ticks of a high lane that end a run, and that a transmitter leaves between frames (R192). -/
abbrev idleTicks : Nat := 20

/-- Ticks one byte takes on a lane: start bit, eight data bits, stop bit (R192). -/
abbrev byteTicks : Nat := 10

end Sys2Proof.Config
end

