-- ==== Sys2Proof/Machine/State.lean ====
section
/-! DEFINITION. The state of the part: what each of its eight blocks owns, its pins and lines, and the queue of waiting
commands; and that state right after reset. -/

namespace Sys2Proof.Machine

/-! ## Tables and banks -/

/-- The kind of a channel slot, and of a SAMPLE (R1, R178). -/
inductive SampleKind where
  | scalar
  | pair
deriving DecidableEq, Repr

/-- One record of the Channel Table (R1). -/
structure SlotRecord where
  configured : Bool
  node : Nat
  subchannel : Fin 4
  kind : SampleKind
  resolution : Nat
  positionOffset : Word
  offsetA : Int
  offsetB : Int
  gainB : Nat
  envelopeLow : Nat
  envelopeHigh : Nat
  envelopeLimit : Nat
  decayRun : Nat
  rateLimit : Nat
  ratePersistence : Nat
  missingLimit : Nat
  partner : Option (Fin 32)
  mismatchTolerance : Nat
  mismatchPersistence : Nat
  settlingHold : Nat
  rewrite : Bool
  noteSuspect : Bool
deriving DecidableEq, Repr

/-- Whether an entry's condition holds within its window or beyond it (R51). -/
inductive EntryForm where
  | inside
  | outside
deriving DecidableEq, Repr

/-- How an entry's latch state follows its condition (R51). -/
inductive EntryMode where
  | level
  | latched
deriving DecidableEq, Repr

/-- One record of the Event Table (R51). Bit k of the mask is line TRGk. -/
structure EntryRecord where
  used : Bool
  slot : Fin 32
  form : EntryForm
  lo : Word
  hi : Word
  hysteresis : Nat
  mode : EntryMode
  priority : Fin 4
  mask : BitVec 4
deriving DecidableEq, Repr

/-- The link record of a bank (R77). -/
structure LinkRecord where
  closeDeadline : Word
  periodMinimum : Ticks
  periodMaximum : Ticks
deriving DecidableEq, Repr

/-- One complete bank of tables (R131). -/
structure Bank where
  slots : Vector SlotRecord 32
  entries : Vector EntryRecord 64
  link : LinkRecord
deriving DecidableEq, Repr

/-- The channel slot record of an empty bank (R132). -/
def SlotRecord.empty : SlotRecord where
  configured := false
  node := 1
  subchannel := 0
  kind := .scalar
  resolution := 16
  positionOffset := 0
  offsetA := 0
  offsetB := 0
  gainB := 1024
  envelopeLow := 0
  envelopeHigh := 0
  envelopeLimit := 1
  decayRun := 1
  rateLimit := 1
  ratePersistence := 1
  missingLimit := 1
  partner := none
  mismatchTolerance := 0
  mismatchPersistence := 1
  settlingHold := 0
  rewrite := false
  noteSuspect := false

/-- The event entry record of an empty bank (R132). -/
def EntryRecord.empty : EntryRecord where
  used := false
  slot := 0
  form := .inside
  lo := 0
  hi := 0
  hysteresis := 0
  mode := .level
  priority := 0
  mask := 0

/-- The link record of an empty bank (R132). -/
def LinkRecord.empty : LinkRecord where
  closeDeadline := 10000
  periodMinimum := 0
  periodMaximum := 0

/-- An empty bank (R132). -/
def Bank.empty : Bank where
  slots := Vector.replicate 32 .empty
  entries := Vector.replicate 64 .empty
  link := .empty

/-! ## The Channel Engine -/

/-- The causes a faulted slot can hold (R22). -/
inductive FaultCause where
  | lost
  | envelope
  | rate
  | mismatch
  | stall
deriving DecidableEq, Repr

/-- The health state of a slot, with the fault cause that FAULTED alone holds (R21, R22). -/
inductive Health where
  | unused
  | acquiring
  | settling
  | tracking
  | suspect
  | faulted (cause : FaultCause)
deriving DecidableEq, Repr

/-- The name of a health state as records and marks carry it (R15, R101). -/
inductive HealthName where
  | unused
  | acquiring
  | settling
  | tracking
  | suspect
  | faulted
deriving DecidableEq, Repr

/-- The dynamic state of one channel slot (section 1.5). The last-position record holds a corrected position and the
cycle number of its sample. -/
structure SlotState where
  health : Health
  missing : Nat
  envelope : Nat
  rate : Nat
  mismatch : Nat
  goodRun : Nat
  hold : Nat
  lastPosition : Option (Word × Word)
  indication : Bool
  validTotal : Count
deriving DecidableEq, Repr

/-- The five sample classification counters (R8). -/
structure SampleCounters where
  unmapped : Word
  stale : Word
  kindMismatch : Word
  duplicate : Word
  malformed : Word
deriving DecidableEq, Repr

/-- What the Channel Engine owns. -/
structure ChannelEngine where
  slots : Vector SlotState 32
  counters : SampleCounters
deriving DecidableEq, Repr

/-- A slot in UNUSED with nothing counted (R19). -/
def SlotState.cleared : SlotState where
  health := .unused
  missing := 0
  envelope := 0
  rate := 0
  mismatch := 0
  goodRun := 0
  hold := 0
  lastPosition := none
  indication := false
  validTotal := 0

/-- The classification counters at zero (R8). -/
def SampleCounters.zero : SampleCounters where
  unmapped := 0
  stale := 0
  kindMismatch := 0
  duplicate := 0
  malformed := 0

/-- The Channel Engine after power-on, RESET_N and RESTART (R19, R20). -/
def ChannelEngine.initial : ChannelEngine where
  slots := Vector.replicate 32 .cleared
  counters := .zero

/-! ## The Event Matcher -/

/-- An entry's verdict on its window (R54, R55). -/
inductive Condition where
  | unknown
  | inWindow
  | outWindow
deriving DecidableEq, Repr

/-- An entry's latch state (R51). -/
inductive Latch where
  | idle
  | active
  | set
  | deferred
deriving DecidableEq, Repr

/-- The dynamic state of one event entry (R51). -/
structure EntryState where
  condition : Condition
  latch : Latch
deriving DecidableEq, Repr

/-- What the Event Matcher owns, beside the trigger lines. -/
structure EventMatcher where
  entries : Vector EntryState 64
deriving DecidableEq, Repr

/-- An entry in IDLE with condition UNKNOWN (R75). -/
def EntryState.cleared : EntryState where
  condition := .unknown
  latch := .idle

/-- The Event Matcher after power-on, RESET_N and RESTART (R75). -/
def EventMatcher.initial : EventMatcher where
  entries := Vector.replicate 64 .cleared

/-! ## The Cycle Tracker -/

/-- The link state (R76). -/
inductive LinkState where
  | waiting
  | opened
  | closed
  | stalled
deriving DecidableEq, Repr

/-- A filled capture slot (R92). -/
structure CaptureSlot where
  cycle : Word
  ticks : Ticks
  extraEdges : BitVec 8
deriving DecidableEq, Repr

/-- The eight cumulative counters of the Cycle Tracker (R96). -/
structure CycleCounters where
  opensTaken : Word
  overtaken : Word
  deadlineEnds : Word
  lateCloses : Word
  shortPeriods : Word
  skips : Word
  stalls : Word
  malformedLink : Word
deriving DecidableEq, Repr

/-- What the Cycle Tracker owns (R76, R92, R96). A stopped timer is `none`. The close-deadline timer holds the ticks it
still has to run; the period timer holds the ticks since the last OPEN taken. -/
structure CycleTracker where
  link : LinkState
  currentCycle : Option Word
  deadlineTimer : Option Word
  periodTimer : Option Ticks
  captureSlot : Option CaptureSlot
  counters : CycleCounters
deriving DecidableEq, Repr

/-- The Cycle Tracker's counters at zero (R96). -/
def CycleCounters.zero : CycleCounters where
  opensTaken := 0
  overtaken := 0
  deadlineEnds := 0
  lateCloses := 0
  shortPeriods := 0
  skips := 0
  stalls := 0
  malformedLink := 0

/-- The Cycle Tracker after power-on, RESET_N and RESTART (R97, R98). -/
def CycleTracker.initial : CycleTracker where
  link := .waiting
  currentCycle := none
  deadlineTimer := none
  periodTimer := none
  captureSlot := none
  counters := .zero

/-! ## The Configuration Controller -/

/-- The two banks (R131). -/
inductive BankName where
  | bankA
  | bankB
deriving DecidableEq, Repr

/-- The two modes (R150). -/
inductive Mode where
  | standby
  | monitor
deriving DecidableEq, Repr

/-- What the Configuration Controller owns (R131, R133). A pending commit and the last completed commit are held as
their tags; a pending mode change as its target and its tag. -/
structure ConfigController where
  bankA : Bank
  bankB : Bank
  active : BankName
  generation : Word
  pendingCommit : Option Byte
  lastCommit : Option Byte
  mode : Mode
  pendingMode : Option (Mode × Byte)
deriving DecidableEq, Repr

/-- The Configuration Controller after power-on and RESET_N (R132, R133). -/
def ConfigController.initial : ConfigController where
  bankA := .empty
  bankB := .empty
  active := .bankA
  generation := 0
  pendingCommit := none
  lastCommit := none
  mode := .standby
  pendingMode := none

/-! ## The Event Queue -/

/-- The cause a HEALTH record carries (R45). -/
inductive RecordCause where
  | none
  | fault (cause : FaultCause)
  | commit
deriving DecidableEq, Repr

/-- The cause an ENTRY_CLEARED record carries (R73). -/
inductive ClearCause where
  | condition
  | acknowledged
  | channel
deriving DecidableEq, Repr

/-- The kind of an event record with its detail (R101). -/
inductive Detail where
  | entrySet (entry : Fin 64) (slot : Fin 32) (position : Word)
  | entryCleared (entry : Fin 64) (slot : Fin 32) (cause : ClearCause)
  | entryReset (entry : Fin 64) (held : Latch)
  | health (slot : Fin 32) (left entered : HealthName) (cause : RecordCause)
  | cycleShort (period : Ticks)
  | cycleSkip (expected received : Word)
  | cycleOvertaken (cycle : Word)
  | closeMissed (cycle : Word)
  | closeLate (cycle : Word)
  | cycleStall (ticks : Ticks)
  | cycleResumed (cycle : Word)
  | capture (ticks : Ticks) (extraEdges : BitVec 8) (link : LinkState)
  | modeChanged (left entered : Mode)
deriving DecidableEq, Repr

/-- An event record as the queue holds it (R99). Its send count is 0 there; the Sent Set holds it from then on. -/
structure EventRecord where
  sequence : Word
  cycle : Word
  priority : Fin 4
  detail : Detail
deriving DecidableEq, Repr

/-- What the Event Queue owns: the records held, oldest first, the next sequence number and the events-lost count
(R103, R106, R107). -/
structure EventQueue where
  records : List EventRecord
  nextSequence : Word
  lost : Word
deriving DecidableEq, Repr

/-- The Event Queue after power-on, RESET_N and RESTART (R111, R112). -/
def EventQueue.initial : EventQueue where
  records := []
  nextSequence := 0
  lost := 0

/-! ## The Command Unit -/

/-- The outcome of a request (R163). -/
inductive RequestOutcome where
  | done
  | refused
deriving DecidableEq, Repr

/-- The reason codes (R163). -/
inductive Reason where
  | none
  | badIndex
  | badValue
  | commitPending
  | nonePending
  | tooLate
  | aborted
  | invalidBank
  | modePending
  | emptyBank
  | wrongMode
  | notLatched
  | notFaulted
  | unknownRequest
deriving DecidableEq, Repr

/-- A response (R163). -/
structure Response where
  tag : Byte
  kind : Byte
  outcome : RequestOutcome
  reason : Reason
  data : List Byte
deriving DecidableEq, Repr

/-- An accepted request: its tag, its request kind as received and its argument field (R155, R157). -/
structure Request where
  tag : Byte
  kind : Byte
  arguments : List Byte
deriving DecidableEq, Repr

/-- An occupied holding slot: WAITING, or PENDING for a COMMIT or SET_MODE that awaits a cycle start (R155). -/
structure Holding where
  request : Request
  pending : Bool
deriving DecidableEq, Repr

/-- What the Command Unit owns (R155). The occupied holding slots stand in the order of acceptance; the two slots are
alike, and an EMPTY one is one that is not listed. `requestTimer` counts the ticks the oldest waiting request has been
due (R196). The list for the slots is a DESIGN CHOICE, safe (log 14). -/
structure CommandUnit where
  slots : List Holding
  freeCredits : Nat
  responses : List Response
  dropped : Word
  malformed : Word
  requestTimer : Nat
deriving DecidableEq, Repr

/-- The Command Unit after power-on and RESET_N (R155). -/
def CommandUnit.initial : CommandUnit where
  slots := []
  freeCredits := 4
  responses := []
  dropped := 0
  malformed := 0
  requestTimer := 0

/-! ## The Report Builder -/

/-- An event item of the Sent Set (R113). -/
structure SentEvent where
  record : EventRecord
  sendCount : Nat
deriving DecidableEq, Repr

/-- A response item of the Sent Set (R113). -/
structure SentResponse where
  response : Response
  sendCount : Nat
deriving DecidableEq, Repr

/-- What the Report Builder owns (R113). -/
structure ReportBuilder where
  sentEvents : List SentEvent
  sentResponses : List SentResponse
  lastNumber : BitVec 8
  abandoned : BitVec 8
  droppedSinceReport : BitVec 8
deriving DecidableEq, Repr

/-- The Report Builder after power-on, RESET_N and RESTART (R129, R130). -/
def ReportBuilder.initial : ReportBuilder where
  sentEvents := []
  sentResponses := []
  lastNumber := 255
  abandoned := 0
  droppedSinceReport := 0

/-! ## The Frame Path -/

/-- A frame in the outbound relay buffer (R184): the run as received, and whether it has been handled, that is
classified and, where called for, handed. A frame not yet handled is a held OPEN or stands behind one (R185). -/
structure OutboundFrame where
  run : Run
  handled : Bool
deriving DecidableEq, Repr

/-- The class of a frame in the inbound relay buffer (section 9.5): a forwarded frame, or an end frame, which is the
REPORT, the CLOSE that ended the cycle by arriving, or a synthesized CLOSE. -/
inductive InboundClass where
  | forwarded
  | report
  | closeReceived
  | closeSynthesized
deriving DecidableEq, Repr

/-- A frame in the inbound relay buffer, with the bytes that will leave CP (R185, R187). -/
structure InboundFrame where
  bytes : List Byte
  cls : InboundClass
deriving DecidableEq, Repr

/-- The six cumulative counters of the Frame Path (R189). -/
structure FrameCounters where
  badOutbound : Word
  badInbound : Word
  dropsOutbound : Word
  dropsInbound : Word
  forwardedOutbound : Count
  forwardedInbound : Count
deriving DecidableEq, Repr

/-- What the Frame Path owns: both relay buffers, oldest first with the frame in transmission at the head, its
counters, and the ticks each transmitter has spent on its head frame (R192): DESIGN CHOICE, unsafe (log 13). -/
structure FramePath where
  outbound : List OutboundFrame
  inbound : List InboundFrame
  counters : FrameCounters
  cpTicks : Nat
  spTicks : Nat
deriving DecidableEq, Repr

/-- The Frame Path's counters at zero (R189). -/
def FrameCounters.zero : FrameCounters where
  badOutbound := 0
  badInbound := 0
  dropsOutbound := 0
  dropsInbound := 0
  forwardedOutbound := 0
  forwardedInbound := 0

/-- The Frame Path after power-on and RESET_N (R189, R190). -/
def FramePath.initial : FramePath where
  outbound := []
  inbound := []
  counters := .zero
  cpTicks := 0
  spTicks := 0

/-! ## Pins and lines -/

/-- The state of the capture qualifier; RISING holds its count of high samples (R195). -/
inductive Qualifier where
  | low
  | rising (count : Nat)
  | high
deriving DecidableEq, Repr

/-- Where the part stands between resets (R190, R194): in power-on reset, in the reset of RESET_N, in the
initialisation period, or running. -/
inductive Phase where
  | powerOnReset
  | pinReset
  | initialising
  | running
deriving DecidableEq, Repr

/-- What the pins themselves contribute: the phase, the ticks of the initialisation period that have passed, the
strap address sampled, the capture qualifier, the level of CAPTURE and whether the tick's sample of it has been taken, and the
consecutive ticks, up to 10, on which RESET_N has been found low (R193 to R195). -/
structure Pins where
  phase : Phase
  initialisationTicks : Nat
  strap : Strap
  qualifier : Qualifier
  capture : Bool
  captureSampled : Bool
  resetLow : Nat
deriving DecidableEq, Repr

/-- The output lines: bit k of `triggers` is TRGk, high when set; `fault` is FAULT_N asserted, that is low (R49, R70). -/
structure Lines where
  triggers : BitVec 4
  fault : Bool
deriving DecidableEq, Repr

/-- The lines negated (R72, R49). -/
def Lines.negated : Lines where
  triggers := 0
  fault := false

/-- The pins when the part has just left reset with the straps given: the levels of CAPTURE and RESET_N are the outside's and
stay (R193 to R195). -/
def Pins.afterReset (strap : Strap) (p : Pins) : Pins :=
  { p with phase := .initialising, initialisationTicks := 0, strap, qualifier := .high, captureSampled := false }

/-- The pins of a part that has just left power-on reset with its straps open: CAPTURE low and RESET_N high are a DESIGN
CHOICE, unsafe (log 22). -/
def Pins.initial : Pins where
  phase := .initialising
  initialisationTicks := 0
  strap := 0
  qualifier := .high
  capture := false
  captureSampled := false
  resetLow := 0

/-! ## The state of the part -/

/-- The state of the part, block by block, with the queue of the commands that are waiting, first in, first out. What the
fields hold in states no run reaches is a DESIGN CHOICE, safe (log 18). -/
structure State where
  frames : FramePath
  cycle : CycleTracker
  channels : ChannelEngine
  matcher : EventMatcher
  queue : EventQueue
  reports : ReportBuilder
  commands : CommandUnit
  config : ConfigController
  lines : Lines
  pins : Pins
  pending : List Instr
deriving DecidableEq, Repr

/-- The part when it has just left power-on reset, its straps open, with no command waiting (R19, R75, R97, R111, R129,
R132, R133, R155, R189, R193 to R195). That the straps are open is a DESIGN CHOICE, unsafe (log 1). -/
def State.reset : State where
  frames := .initial
  cycle := .initial
  channels := .initial
  matcher := .initial
  queue := .initial
  reports := .initial
  commands := .initial
  config := .initial
  lines := .negated
  pins := .initial
  pending := []

/-- The state with another Frame Path. -/
def State.withFrames (s : State) (x : FramePath) : State := { s with frames := x }

/-- The state with another Cycle Tracker. -/
def State.withCycle (s : State) (x : CycleTracker) : State := { s with cycle := x }

/-- The state with another Channel Engine. -/
def State.withChannels (s : State) (x : ChannelEngine) : State := { s with channels := x }

/-- The state with another Event Matcher. -/
def State.withMatcher (s : State) (x : EventMatcher) : State := { s with matcher := x }

/-- The state with another Event Queue. -/
def State.withQueue (s : State) (x : EventQueue) : State := { s with queue := x }

/-- The state with another Report Builder. -/
def State.withReports (s : State) (x : ReportBuilder) : State := { s with reports := x }

/-- The state with another Command Unit. -/
def State.withCommands (s : State) (x : CommandUnit) : State := { s with commands := x }

/-- The state with another Configuration Controller. -/
def State.withConfig (s : State) (x : ConfigController) : State := { s with config := x }

/-- The state with other lines. -/
def State.withLines (s : State) (x : Lines) : State := { s with lines := x }

/-- The state with other pins. -/
def State.withPins (s : State) (x : Pins) : State := { s with pins := x }

/-- The state with another queue of waiting commands. -/
def State.withPending (s : State) (x : List Instr) : State := { s with pending := x }

/-- Why the machine would stop with a fault. The data sheet gives every command an effect in every state, so there is
no reason to fault and no command raises one: DEDUCED, unsafe (log 19). -/
inductive Fault where
deriving DecidableEq, Repr

/-- Why a command is refused. -/
inductive Refusal where
  /-- A command without a meaning yet, by its mnemonic, raised by an arm of exec alone. Safe: the machine stops. No
  command is refused so in this model. -/
  | notModelled (mnemonic : String)
deriving DecidableEq, Repr

end Sys2Proof.Machine
end

