-- ==== Sys2Proof/Machine/Ops.lean ====
section
/-! DEFINITION. The shared operations over State: saturating counters, byte order, the two banks, posting event records,
completing requests. -/

namespace Sys2Proof.Machine

/-! ## Counters -/

/-- A saturating counter advanced by `k`: it holds its largest value (section 4.7). -/
def satAdd {n : Nat} (c : BitVec n) (k : Nat) : BitVec n := BitVec.ofNat n (min (2 ^ n - 1) (c.toNat + k))

/-- A saturating counter advanced by one (section 4.7). -/
def satInc {n : Nat} (c : BitVec n) : BitVec n := satAdd c 1

/-! ## Byte order: most significant byte first (section 4.8) -/

/-- Two bytes as a 16-bit field. -/
def be16 (hi lo : Byte) : Word := (hi ++ lo : BitVec (8 + 8))

/-- Three bytes as a 24-bit field. -/
def be24 (hi mid lo : Byte) : Ticks := (hi ++ (mid ++ lo : BitVec (8 + 8)) : BitVec (8 + (8 + 8)))

/-- A 16-bit field as two bytes. -/
def bytes16 (w : Word) : List Byte := [w.extractLsb' 8 8, w.extractLsb' 0 8]

/-- A 24-bit field as three bytes. -/
def bytes24 (w : Ticks) : List Byte := [w.extractLsb' 16 8, w.extractLsb' 8 8, w.extractLsb' 0 8]

/-- A 32-bit field as four bytes. -/
def bytes32 (w : Count) : List Byte :=
  [w.extractLsb' 24 8, w.extractLsb' 16 8, w.extractLsb' 8 8, w.extractLsb' 0 8]

/-- A small number as one byte. -/
def byteOf (n : Nat) : Byte := BitVec.ofNat 8 n

/-- yes or no as one byte (section 8.5). -/
def boolByte (b : Bool) : Byte := if b then 1 else 0

/-! ## Health states -/

/-- A health state's name, without its cause. -/
def Health.name : Health → HealthName
  | .unused => .unused
  | .acquiring => .acquiring
  | .settling => .settling
  | .tracking => .tracking
  | .suspect => .suspect
  | .faulted _ => .faulted

/-- The pair TRACKING and SUSPECT, whose slots deliver positions (R46, R65). -/
def Health.inPair : Health → Bool
  | .tracking => true
  | .suspect => true
  | _ => false

/-- FAULTED, whatever the cause. -/
def Health.isFaulted : Health → Bool
  | .faulted _ => true
  | _ => false

/-- FAULTED with a latched cause: ENVELOPE, RATE or MISMATCH (R22). -/
def Health.isLatchedFault : Health → Bool
  | .faulted .envelope => true
  | .faulted .rate => true
  | .faulted .mismatch => true
  | _ => false

/-- A latch state that drives the lines of its entry's mask: ACTIVE, SET or DEFERRED (R70). -/
def Latch.drives : Latch → Bool
  | .idle => false
  | .active => true
  | .set => true
  | .deferred => true

/-! ## The banks -/

/-- The other of the two banks. -/
def BankName.other : BankName → BankName
  | .bankA => .bankB
  | .bankB => .bankA

/-- A bank by its name (R131). -/
def ConfigController.bank (c : ConfigController) : BankName → Bank
  | .bankA => c.bankA
  | .bankB => c.bankB

/-- The controller with the contents of one bank replaced. -/
def ConfigController.withBank (c : ConfigController) (name : BankName) (b : Bank) : ConfigController :=
  match name with
  | .bankA => { c with bankA := b }
  | .bankB => { c with bankB := b }

/-- The active bank, which every block that judges, evaluates or times reads (R131). -/
def State.activeBank (s : State) : Bank := s.config.bank s.config.active

/-- The shadow bank, which receives the controller's writes (R131). -/
def State.shadowBank (s : State) : Bank := s.config.bank s.config.active.other

/-- The state with the contents of the shadow bank replaced. -/
def State.withShadowBank (s : State) (b : Bank) : State :=
  s.withConfig (s.config.withBank s.config.active.other b)

/-- The record of a slot in the active bank. -/
def State.slotRecord (s : State) (i : Fin 32) : SlotRecord := s.activeBank.slots[i]

/-- The record of an entry in the active bank. -/
def State.entryRecord (s : State) (i : Fin 64) : EntryRecord := s.activeBank.entries[i]

/-- The dynamic state of a slot. -/
def State.slot (s : State) (i : Fin 32) : SlotState := s.channels.slots[i]

/-- The dynamic state of an entry. -/
def State.entry (s : State) (i : Fin 64) : EntryState := s.matcher.entries[i]

/-- The state with the dynamic state of one slot replaced. -/
def State.withSlot (s : State) (i : Fin 32) (d : SlotState) : State :=
  s.withChannels { s.channels with slots := s.channels.slots.set i d }

/-- The state with the dynamic state of every slot replaced. -/
def State.withSlots (s : State) (f : Fin 32 → SlotState) : State :=
  s.withChannels { s.channels with slots := Vector.ofFn f }

/-- The state with the dynamic state of one entry replaced. -/
def State.withEntry (s : State) (i : Fin 64) (e : EntryState) : State :=
  s.withMatcher { s.matcher with entries := s.matcher.entries.set i e }

/-- The state with the dynamic state of every entry replaced. -/
def State.withEntries (s : State) (f : Fin 64 → EntryState) : State :=
  s.withMatcher { s.matcher with entries := Vector.ofFn f }

/-! ## Cycle numbers -/

/-- The current cycle number, or 0 when it is absent (R76, R100). -/
def State.cycleNumber (s : State) : Word := s.cycle.currentCycle.getD 0

/-! ## The Event Queue -/

/-- The lowest priority held (R105). -/
def lowestPriority (records : List EventRecord) : Fin 4 := records.foldr (fun r p => min r.priority p) 3

/-- The records without the one posted last among those of priority `p` (R105). -/
def withoutYoungest (p : Fin 4) (records : List EventRecord) : List EventRecord :=
  (records.reverse.eraseP fun r => decide (r.priority = p)).reverse

/-- The Event Queue's side of a posting: the record takes the next sequence number, and is appended, displaces a
record of the lowest priority held, or is dropped (R103 to R105, R107). -/
def EventQueue.post (q : EventQueue) (cycle : Word) (priority : Fin 4) (detail : Detail) : EventQueue :=
  let record : EventRecord := { sequence := q.nextSequence, cycle, priority, detail }
  let next := q.nextSequence + 1
  if q.records.length < Config.eventCapacity then
    { records := q.records ++ [record], nextSequence := next, lost := q.lost }
  else if lowestPriority q.records < priority then
    { records := withoutYoungest (lowestPriority q.records) q.records ++ [record], nextSequence := next,
      lost := satInc q.lost }
  else
    { records := q.records, nextSequence := next, lost := satInc q.lost }

/-- Posting a record with the cycle number current at the moment (R100). -/
def post (priority : Fin 4) (detail : Detail) (s : State) : State :=
  s.withQueue (s.queue.post s.cycleNumber priority detail)

/-- Posting a list of records, each with its priority, in its order (R102). -/
def postAll (records : List (Fin 4 × Detail)) (s : State) : State :=
  records.foldl (fun t r => post r.1 r.2 t) s

/-! ## HEALTH records -/

/-- The cause carried by a HEALTH record of a change that is no bank swap's: the cause entered, else the cause removed,
else NONE (R45). -/
def changeCause (left entered : Health) : RecordCause :=
  match entered, left with
  | .faulted c, _ => .fault c
  | _, .faulted c => .fault c
  | _, _ => .none

/-- Whether a change of health state posts a record: every change does, but for one between TRACKING and SUSPECT of a
slot without NOTE_SUSPECT (R46). -/
def changePosts (noteSuspect : Bool) (left entered : Health) : Bool :=
  decide (left ≠ entered) && (noteSuspect || !(left.inPair && entered.inPair))

/-- The HEALTH record of a change, with priority 3, or none when it posts none (R45, R46). -/
def healthRecord (r : SlotRecord) (i : Fin 32) (left entered : Health) (cause : RecordCause) :
    List (Fin 4 × Detail) :=
  if changePosts r.noteSuspect left entered then [(3, .health i left.name entered.name cause)] else []

/-! ## Requests and responses -/

/-- The oldest request in a WAITING slot, the next to execute (R160). -/
def CommandUnit.next (c : CommandUnit) : Option Request :=
  (c.slots.find? fun h => !h.pending).map Holding.request

/-- Whether some holding slot is WAITING. -/
def CommandUnit.isWaiting (c : CommandUnit) : Bool := c.slots.any fun h => !h.pending

/-- A response behind the youngest response held (R164). -/
def CommandUnit.respond (c : CommandUnit) (r : Response) : CommandUnit :=
  { c with responses := c.responses ++ [r] }

/-- The executing request's slot becomes EMPTY, and the next request's time begins (R160, R196). -/
def CommandUnit.finish (c : CommandUnit) : CommandUnit :=
  { c with slots := c.slots.eraseP fun h => !h.pending, requestTimer := 0 }

/-- The executing request's slot becomes PENDING, and the next request's time begins (R160, R196). -/
def CommandUnit.suspend : List Holding → List Holding
  | [] => []
  | h :: rest => if h.pending then h :: CommandUnit.suspend rest else { h with pending := true } :: rest

/-- The slot of the pending request of the kind given becomes EMPTY (R145, R151, R143). -/
def CommandUnit.release (c : CommandUnit) (kind : Byte) : CommandUnit :=
  { c with slots := c.slots.eraseP fun h => h.pending && decide (h.request.kind = kind) }

/-- The executing request completes with the outcome given: its response is posted and its slot becomes EMPTY (R160). -/
def complete (q : Request) (outcome : RequestOutcome) (reason : Reason) (data : List Byte) (s : State) : State :=
  s.withCommands (s.commands.finish.respond { tag := q.tag, kind := q.kind, outcome, reason, data })

/-- The request is refused, with no data (R163). -/
def refuse (q : Request) (reason : Reason) (s : State) : State := complete q .refused reason [] s

/-- The request is done, with the data given (R163). -/
def done (q : Request) (data : List Byte) (s : State) : State := complete q .done .none data s

end Sys2Proof.Machine
end

