-- ==== Sys2Proof/Machine/Operands.lean ====
section
/-! DEFINITION. The forms of what the part takes and sends: the frame check and the frame layouts, the value codes, the
content of a record, the argument lengths of the request kinds. -/

namespace Sys2Proof.Machine

/-! ## The frame check (R179) -/

/-- One shift of the remainder: left by one, combined with 0x1021 when the bit shifted out was one. -/
def crcShift (r : Word) : Word := if r.msb then (r <<< 1) ^^^ 0x1021#16 else r <<< 1

/-- One byte taken: combined into the upper eight bits, then eight shifts. -/
def crcByte (r : Word) (b : Byte) : Word :=
  crcShift (crcShift (crcShift (crcShift (crcShift (crcShift (crcShift (crcShift
    (r ^^^ be16 b 0))))))))

/-- The frame check of a run of bytes (R179). -/
def frameCheck (bytes : List Byte) : Word := bytes.foldl crcByte 0xFFFF#16

/-! ## Frames (R178, R180) -/

/-- An intact frame's type, address and body. -/
structure Frame where
  type : Byte
  address : Byte
  body : List Byte
deriving DecidableEq, Repr

/-- The bytes of a frame before its check: type, address, length and body. -/
def Frame.head (f : Frame) : List Byte := f.type :: f.address :: byteOf f.body.length :: f.body

/-- The bytes of a frame with its check computed (R178, R179). -/
def Frame.bytes (f : Frame) : List Byte := f.head ++ bytes16 (frameCheck f.head)

/-- The frame in a run judged intact, or none for a bad run: a framing error, fewer than 5 bytes, a length byte above
250 or not 5 below the run's length, or a failed check (R180). -/
def intactFrame (run : Run) : Option Frame :=
  match run.bytes with
  | type :: address :: length :: rest =>
    let body := rest.take length.toNat
    let f : Frame := { type, address, body }
    if run.framingError = false ∧ length.toNat ≤ Config.longestBody ∧ rest.length = length.toNat + 2 ∧
        rest.drop length.toNat = bytes16 (frameCheck f.head) then some f else none
  | _ => none

/-- The type codes (R178). -/
def typeOpen : Byte := 0x10
/-- The type code of MGMT (R178). -/
def typeMgmt : Byte := 0x18
/-- The type code of SAMPLE (R178). -/
def typeSample : Byte := 0x20
/-- The type code of CLOSE (R178). -/
def typeClose : Byte := 0x28
/-- The type code of REPORT (R178). -/
def typeReport : Byte := 0x30

/-- The strap address as an address byte (R193). -/
def strapByte (strap : Strap) : Byte := strap.setWidth 8

/-- A well-formed OPEN's cycle number and acknowledgement list (R78). -/
structure OpenBody where
  cycle : Word
  acks : List (Byte × Byte)
deriving DecidableEq, Repr

/-- The pairs of an acknowledgement list; none when the bytes do not pair. -/
def parsePairs : List Byte → Option (List (Byte × Byte))
  | [] => some []
  | a :: n :: rest => (parsePairs rest).map fun l => (a, n) :: l
  | [_] => none

/-- The form check of an OPEN: a count of 0..4 and that many pairs (R78). -/
def parseOpen (body : List Byte) : Option OpenBody :=
  match body with
  | c1 :: c0 :: count :: rest =>
    if count.toNat ≤ 4 ∧ rest.length = 2 * count.toNat then
      (parsePairs rest).map fun acks => { cycle := be16 c1 c0, acks }
    else none
  | _ => none

/-- The form check of a CLOSE: its cycle number, when its body is 3 bytes, or 4 with SYNTHESIZED (R78). -/
def parseClose (body : List Byte) : Option Word :=
  match body with
  | [c1, c0, flags] => if flags.getLsbD 0 then none else some (be16 c1 c0)
  | [c1, c0, flags, _] => if flags.getLsbD 0 then some (be16 c1 c0) else none
  | _ => none

/-- A well-formed SAMPLE as the Channel Engine reads it (section 9.2). A SCALAR sample's components are not read. -/
structure Sample where
  address : Byte
  kind : SampleKind
  subchannel : Fin 4
  cycle : Word
  position : Word
  marks : Byte
  a : Int
  b : Int
deriving DecidableEq, Repr

/-- The subchannel in bits 1..0 of the first SAMPLE byte; bits 6..2 are not interpreted (R181). -/
def subchannelOf (b : Byte) : Fin 4 := (b.extractLsb' 0 2).toFin

/-- The form check of a SAMPLE: a body of 6 bytes for SCALAR, 10 for PAIR, as bit 7 of its first byte states (R3). -/
def parseSample (address : Byte) (body : List Byte) : Option Sample :=
  match body with
  | [k, c1, c0, p1, p0, marks] =>
    if k.msb then none
    else some { address, kind := .scalar, subchannel := subchannelOf k, cycle := be16 c1 c0,
                position := be16 p1 p0, marks, a := 0, b := 0 }
  | [k, c1, c0, p1, p0, marks, a1, a0, b1, b0] =>
    if k.msb then some { address, kind := .pair, subchannel := subchannelOf k, cycle := be16 c1 c0,
                         position := be16 p1 p0, marks, a := (be16 a1 a0).toInt, b := (be16 b1 b0).toInt }
    else none
  | _ => none

/-- MONITORED, bit 7 of the marks (section 9.2). -/
def markMonitored : Byte := 0x80
/-- REWRITTEN, bit 6 of the marks (section 9.2). -/
def markRewritten : Byte := 0x40

/-- Whether the marks carry REWRITTEN. -/
def isRewritten (marks : Byte) : Bool := marks.getLsbD 6

/-- A SAMPLE's body with its marks, and where given its position, replaced (R17). -/
def rewriteBody (body : List Byte) (marks : Byte) (position : Option Word) : List Byte :=
  let marked := body.set 5 marks
  match position with
  | some p => (marked.set 3 (p.extractLsb' 8 8)).set 4 (p.extractLsb' 0 8)
  | none => marked

/-! ## Value codes (section 8.5) -/

/-- The code of a sample kind. -/
def SampleKind.code : SampleKind → Byte
  | .scalar => 0
  | .pair => 1

/-- The code of an entry form. -/
def EntryForm.code : EntryForm → Byte
  | .inside => 0
  | .outside => 1

/-- The code of an entry mode. -/
def EntryMode.code : EntryMode → Byte
  | .level => 0
  | .latched => 1

/-- The code of a mode. -/
def Mode.code : Mode → Byte
  | .standby => 1
  | .monitor => 2

/-- The code of a pending mode change: 0 none, 1 to STANDBY, 2 to MONITOR. -/
def pendingModeCode : Option (Mode × Byte) → Byte
  | none => 0
  | some (m, _) => m.code

/-- The code of a health state. -/
def HealthName.code : HealthName → Byte
  | .unused => 0
  | .acquiring => 1
  | .settling => 2
  | .tracking => 3
  | .suspect => 4
  | .faulted => 5

/-- The code of a fault cause. -/
def FaultCause.code : FaultCause → Byte
  | .lost => 1
  | .envelope => 2
  | .rate => 3
  | .mismatch => 4
  | .stall => 5

/-- The code of a HEALTH record's cause. -/
def RecordCause.code : RecordCause → Byte
  | .none => 0
  | .fault c => c.code
  | .commit => 6

/-- The code of the cause a slot holds: NONE when it is not FAULTED (R171). -/
def Health.causeCode : Health → Byte
  | .faulted c => c.code
  | _ => 0

/-- The code of a link state. -/
def LinkState.code : LinkState → Byte
  | .waiting => 0
  | .opened => 1
  | .closed => 2
  | .stalled => 3

/-- The code of a condition. -/
def Condition.code : Condition → Byte
  | .unknown => 0
  | .inWindow => 1
  | .outWindow => 2

/-- The code of a latch state. -/
def Latch.code : Latch → Byte
  | .idle => 0
  | .active => 1
  | .set => 2
  | .deferred => 3

/-- The code of an ENTRY_CLEARED cause (section 9.2). -/
def ClearCause.code : ClearCause → Byte
  | .condition => 1
  | .acknowledged => 2
  | .channel => 3

/-- The code of a bank name. -/
def BankName.code : BankName → Byte
  | .bankA => 0
  | .bankB => 1

/-- The code of a reason (R163). -/
def Reason.code : Reason → Byte
  | .none => 0
  | .badIndex => 1
  | .badValue => 2
  | .commitPending => 3
  | .nonePending => 4
  | .tooLate => 5
  | .aborted => 6
  | .invalidBank => 7
  | .modePending => 8
  | .emptyBank => 9
  | .wrongMode => 10
  | .notLatched => 11
  | .notFaulted => 12
  | .unknownRequest => 13

/-- The tables of a bank (section 8.5). -/
inductive Table where
  | slot
  | entry
  | link
deriving DecidableEq, Repr

/-- The code of a table. -/
def Table.code : Table → Byte
  | .slot => 0
  | .entry => 1
  | .link => 2

/-- The table a byte names. -/
def tableOf (b : Byte) : Option Table :=
  if b = 0 then some .slot else if b = 1 then some .entry else if b = 2 then some .link else none

/-- The number of records of a table (R131). -/
def Table.size : Table → Nat
  | .slot => 32
  | .entry => 64
  | .link => 1

/-- The mode a SET_MODE target byte names (R169). -/
def modeOf (b : Byte) : Option Mode :=
  if b = 1 then some .standby else if b = 2 then some .monitor else none

/-- The yes/no value a byte names. -/
def boolOf (b : Byte) : Option Bool := if b = 0 then some false else if b = 1 then some true else none

/-- The sample kind a byte names. -/
def kindOf (b : Byte) : Option SampleKind :=
  if b = 0 then some .scalar else if b = 1 then some .pair else none

/-- The entry form a byte names. -/
def formOf (b : Byte) : Option EntryForm :=
  if b = 0 then some .inside else if b = 1 then some .outside else none

/-- The entry mode a byte names. -/
def entryModeOf (b : Byte) : Option EntryMode :=
  if b = 0 then some .level else if b = 1 then some .latched else none

/-- A byte as an index below n. -/
def indexOf (n : Nat) (b : Byte) : Option (Fin n) := if h : b.toNat < n then some ⟨b.toNat, h⟩ else none

/-- The partner a byte names: 255 absent, 0..31 the slot (R166). -/
def partnerOf (b : Byte) : Option (Option (Fin 32)) :=
  if b = 255 then some none else (indexOf 32 b).map some

/-- The code of a partner field. -/
def partnerCode : Option (Fin 32) → Byte
  | none => 255
  | some i => byteOf i.val

/-! ## Record content (section 8.5, R166) -/

/-- The ranges of a channel slot record's fields that its type leaves open (R1, R136). -/
def SlotRecord.inRange (r : SlotRecord) : Bool :=
  decide (1 ≤ r.node ∧ r.node ≤ 31) && decide (10 ≤ r.resolution ∧ r.resolution ≤ 16) &&
  decide (-2048 ≤ r.offsetA ∧ r.offsetA ≤ 2047) && decide (-2048 ≤ r.offsetB ∧ r.offsetB ≤ 2047) &&
  decide (768 ≤ r.gainB ∧ r.gainB ≤ 1280) && decide (r.envelopeLow ≤ 32768) && decide (r.envelopeHigh ≤ 32768) &&
  decide (1 ≤ r.envelopeLimit ∧ r.envelopeLimit ≤ 127) && decide (1 ≤ r.decayRun ∧ r.decayRun ≤ 255) &&
  decide (1 ≤ r.rateLimit ∧ r.rateLimit ≤ 32767) && decide (1 ≤ r.ratePersistence ∧ r.ratePersistence ≤ 15) &&
  decide (1 ≤ r.missingLimit ∧ r.missingLimit ≤ 15) && decide (r.mismatchTolerance ≤ 32767) &&
  decide (1 ≤ r.mismatchPersistence ∧ r.mismatchPersistence ≤ 15) && decide (r.settlingHold ≤ 255)

/-- The ranges of an event entry record's fields that its type leaves open (R51, R136). -/
def EntryRecord.inRange (r : EntryRecord) : Bool := decide (r.hysteresis ≤ 4095)

/-- The ranges of the link record's fields that its type leaves open (R77, R136). -/
def LinkRecord.inRange (r : LinkRecord) : Bool := decide (r.closeDeadline ≠ 0)

/-- The slot flags byte: 1 for REWRITE, 2 for NOTE_SUSPECT. -/
def slotFlags (r : SlotRecord) : Byte := (if r.rewrite then 1 else 0) + (if r.noteSuspect then 2 else 0)

/-- A channel slot record as its 29 bytes. -/
def SlotRecord.content (r : SlotRecord) : List Byte :=
  [boolByte r.configured, byteOf r.node, byteOf r.subchannel.val, r.kind.code, byteOf r.resolution] ++
  bytes16 r.positionOffset ++ bytes16 (BitVec.ofInt 16 r.offsetA) ++ bytes16 (BitVec.ofInt 16 r.offsetB) ++
  bytes16 (BitVec.ofNat 16 r.gainB) ++ bytes16 (BitVec.ofNat 16 r.envelopeLow) ++
  bytes16 (BitVec.ofNat 16 r.envelopeHigh) ++ [byteOf r.envelopeLimit, byteOf r.decayRun] ++
  bytes16 (BitVec.ofNat 16 r.rateLimit) ++ [byteOf r.ratePersistence, byteOf r.missingLimit, partnerCode r.partner] ++
  bytes16 (BitVec.ofNat 16 r.mismatchTolerance) ++
  [byteOf r.mismatchPersistence, byteOf r.settlingHold, slotFlags r]

/-- An event entry record as its 12 bytes. -/
def EntryRecord.content (r : EntryRecord) : List Byte :=
  [boolByte r.used, byteOf r.slot.val, r.form.code] ++ bytes16 r.lo ++ bytes16 r.hi ++
  bytes16 (BitVec.ofNat 16 r.hysteresis) ++ [r.mode.code, byteOf r.priority.val, byteOf r.mask.toNat]

/-- A link record as its 8 bytes. -/
def LinkRecord.content (r : LinkRecord) : List Byte :=
  bytes16 r.closeDeadline ++ bytes24 r.periodMinimum ++ bytes24 r.periodMaximum

/-- The channel slot record that 29 bytes carry; none where a byte names no value or a field is out of its range
(R136, R166). -/
def parseSlotRecord (bytes : List Byte) : Option SlotRecord :=
  match bytes with
  | [cfg, node, sub, kind, res, po1, po0, oa1, oa0, ob1, ob0, gb1, gb0, el1, el0, eh1, eh0, lim, decay, rl1, rl0, rp,
      ml, partner, mt1, mt0, mp, hold, flags] => do
    let configured ← boolOf cfg
    let subchannel ← indexOf 4 sub
    let kind ← kindOf kind
    let partner ← partnerOf partner
    let flags ← indexOf 4 flags
    let r : SlotRecord :=
      { configured, node := node.toNat, subchannel, kind, resolution := res.toNat,
        positionOffset := be16 po1 po0, offsetA := (be16 oa1 oa0).toInt, offsetB := (be16 ob1 ob0).toInt,
        gainB := (be16 gb1 gb0).toNat, envelopeLow := (be16 el1 el0).toNat, envelopeHigh := (be16 eh1 eh0).toNat,
        envelopeLimit := lim.toNat, decayRun := decay.toNat, rateLimit := (be16 rl1 rl0).toNat,
        ratePersistence := rp.toNat, missingLimit := ml.toNat, partner,
        mismatchTolerance := (be16 mt1 mt0).toNat, mismatchPersistence := mp.toNat, settlingHold := hold.toNat,
        rewrite := flags.val % 2 = 1, noteSuspect := 2 ≤ flags.val }
    if r.inRange then some r else none
  | _ => none

/-- The event entry record that 12 bytes carry; none where a byte names no value or a field is out of its range
(R136, R166). -/
def parseEntryRecord (bytes : List Byte) : Option EntryRecord :=
  match bytes with
  | [used, slot, form, lo1, lo0, hi1, hi0, hy1, hy0, mode, priority, mask] => do
    let used ← boolOf used
    let slot ← indexOf 32 slot
    let form ← formOf form
    let mode ← entryModeOf mode
    let priority ← indexOf 4 priority
    let mask ← indexOf 16 mask
    let r : EntryRecord :=
      { used, slot, form, lo := be16 lo1 lo0, hi := be16 hi1 hi0, hysteresis := (be16 hy1 hy0).toNat, mode, priority,
        mask := BitVec.ofNat 4 mask.val }
    if r.inRange then some r else none
  | _ => none

/-- The link record that 8 bytes carry; none where a field is out of its range (R77, R136). -/
def parseLinkRecord (bytes : List Byte) : Option LinkRecord :=
  match bytes with
  | [cd1, cd0, mn2, mn1, mn0, mx2, mx1, mx0] =>
    let r : LinkRecord :=
      { closeDeadline := be16 cd1 cd0, periodMinimum := be24 mn2 mn1 mn0, periodMaximum := be24 mx2 mx1 mx0 }
    if r.inRange then some r else none
  | _ => none

/-! ## Request kinds (section 8.5) -/

/-- The twelve request kinds. -/
inductive RequestKind where
  | readEntry
  | writeShadow
  | syncShadow
  | commit
  | abortCommit
  | setMode
  | ackEvent
  | ackChannel
  | readChannel
  | readStatus
  | clearCounters
  | restart
deriving DecidableEq, Repr

/-- The code of a request kind. -/
def RequestKind.code : RequestKind → Byte
  | .readEntry => 0x01
  | .writeShadow => 0x02
  | .syncShadow => 0x03
  | .commit => 0x04
  | .abortCommit => 0x05
  | .setMode => 0x06
  | .ackEvent => 0x08
  | .ackChannel => 0x09
  | .readChannel => 0x0C
  | .readStatus => 0x0D
  | .clearCounters => 0x0E
  | .restart => 0x0F

/-- Every request kind. -/
def RequestKind.all : List RequestKind :=
  [.readEntry, .writeShadow, .syncShadow, .commit, .abortCommit, .setMode, .ackEvent, .ackChannel, .readChannel,
   .readStatus, .clearCounters, .restart]

/-- The request kind a byte names; none for an unknown kind (R162). -/
def requestKindOf (b : Byte) : Option RequestKind := RequestKind.all.find? fun k => decide (k.code = b)

/-- The argument length of a WRITE_SHADOW for a table (R168). -/
def Table.writeLength : Table → Nat
  | .slot => 31
  | .entry => 14
  | .link => 10

/-- The length test: each kind requires a fixed argument length, and WRITE_SHADOW the one that fits the table its first
argument byte names (R162, R168). -/
def lengthFits (k : RequestKind) (arguments : List Byte) : Bool :=
  match k with
  | .readEntry => decide (arguments.length = 3)
  | .writeShadow =>
    match arguments with
    | [] => false
    | t :: _ =>
      match tableOf t with
      | some table => decide (arguments.length = table.writeLength)
      | none => false
  | .abortCommit => decide (arguments.length = 1)
  | .setMode => decide (arguments.length = 1)
  | .ackEvent => decide (arguments.length = 1)
  | .ackChannel => decide (arguments.length = 1)
  | .readChannel => decide (arguments.length = 1)
  | .syncShadow => decide (arguments.length = 0)
  | .commit => decide (arguments.length = 0)
  | .readStatus => decide (arguments.length = 0)
  | .clearCounters => decide (arguments.length = 0)
  | .restart => decide (arguments.length = 0)

end Sys2Proof.Machine
end

