-- ==== Sys2Proof/Machine/Flags.lean ====
section
/-! DEFINITION. What the part shows of its state: the laws of the trigger lines and of FAULT_N, the status block of a
REPORT, the data of READ_STATUS and READ_CHANNEL, the marks of a SAMPLE. -/

namespace Sys2Proof.Machine

/-- Whether some slot is FAULTED. -/
def State.someFaulted (s : State) : Bool := (List.finRange 32).any fun i => (s.slot i).health.isFaulted

/-- The law of FAULT_N: asserted exactly when the mode is MONITOR and some slot is FAULTED or the link is STALLED
(R49). -/
def faultLaw (s : State) : Bool :=
  decide (s.config.mode = .monitor) && (s.someFaulted || decide (s.cycle.link = .stalled))

/-- The masks of the used entries that are ACTIVE, SET or DEFERRED, joined. -/
def State.drivenMask (s : State) : BitVec 4 :=
  (List.finRange 64).foldl
    (fun m i => if (s.entryRecord i).used && (s.entry i).latch.drives then m ||| (s.entryRecord i).mask else m) 0

/-- The law of the trigger lines: TRGk is asserted exactly when the mode is MONITOR and some used entry of the active
bank whose mask includes k is ACTIVE, SET or DEFERRED (R70). -/
def triggerLaw (s : State) : BitVec 4 := if s.config.mode = .monitor then s.drivenMask else 0

/-- The lines brought into agreement with their laws (R49, R70), within the happening: the pin's delay is left out, unsafe
(log 21). -/
def settleLines (s : State) : State := s.withLines { triggers := triggerLaw s, fault := faultLaw s }

/-- The mode byte of a status block: LISTEN_ONLY when the strap address is 0 (R121). -/
def statusMode (s : State) : Byte := if s.pins.strap = 0 then 3 else s.config.mode.code

/-- The status block of a REPORT, 12 bytes (R121). -/
def statusBlock (s : State) : List Byte :=
  [statusMode s, s.cycle.link.code, boolByte s.lines.fault, boolByte s.config.pendingCommit.isSome,
   pendingModeCode s.config.pendingMode, s.reports.droppedSinceReport] ++
  bytes16 s.queue.lost ++ [s.reports.abandoned] ++ bytes16 s.config.generation ++ [byteOf s.queue.records.length]

/-- The lines byte of READ_STATUS: 1, 2, 4, 8 for TRG0..TRG3 and 16 for FAULT_N (R172). -/
def linesByte (l : Lines) : Byte := l.triggers.setWidth 8 + (if l.fault then 16 else 0)

/-- The eight counters of the Cycle Tracker in the order of R96, 16 bytes. -/
def CycleCounters.data (c : CycleCounters) : List Byte :=
  bytes16 c.opensTaken ++ bytes16 c.overtaken ++ bytes16 c.deadlineEnds ++ bytes16 c.lateCloses ++
  bytes16 c.shortPeriods ++ bytes16 c.skips ++ bytes16 c.stalls ++ bytes16 c.malformedLink

/-- The five classification counters in the order of R172, 10 bytes. -/
def SampleCounters.data (c : SampleCounters) : List Byte :=
  bytes16 c.unmapped ++ bytes16 c.stale ++ bytes16 c.kindMismatch ++ bytes16 c.duplicate ++ bytes16 c.malformed

/-- The six counters of the Frame Path in the order of R189, 16 bytes. -/
def FrameCounters.data (c : FrameCounters) : List Byte :=
  bytes16 c.badOutbound ++ bytes16 c.badInbound ++ bytes16 c.dropsOutbound ++ bytes16 c.dropsInbound ++
  bytes32 c.forwardedOutbound ++ bytes32 c.forwardedInbound

/-- The data of READ_STATUS, 56 bytes (R172). -/
def statusData (s : State) : List Byte :=
  [s.config.mode.code, s.cycle.link.code, linesByte s.lines, boolByte s.config.pendingCommit.isSome,
   pendingModeCode s.config.pendingMode] ++ bytes16 s.config.generation ++ [byteOf s.queue.records.length] ++
  bytes16 s.queue.lost ++ s.cycle.counters.data ++ s.channels.counters.data ++ s.frames.counters.data ++
  bytes16 s.commands.dropped ++ bytes16 s.commands.malformed

/-- The data of READ_CHANNEL for a slot's dynamic state, 18 bytes (R171). -/
def SlotState.data (d : SlotState) : List Byte :=
  [d.health.name.code, d.health.causeCode, byteOf d.missing, byteOf d.envelope, byteOf d.rate, byteOf d.mismatch,
   byteOf d.goodRun, byteOf d.hold, boolByte d.lastPosition.isSome] ++
  bytes16 ((d.lastPosition.map Prod.fst).getD 0) ++ bytes16 ((d.lastPosition.map Prod.snd).getD 0) ++
  bytes32 d.validTotal ++ [boolByte d.indication]

/-- The marks of a forwarded mapped SAMPLE: MONITORED set, HEALTH the slot's state, REWRITTEN as it arrived or set by a
rewrite, the rest as it arrived (R15). -/
def writtenMarks (arrived : Byte) (health : HealthName) (rewritten : Bool) : Byte :=
  (arrived &&& 0x78#8) ||| markMonitored ||| health.code ||| (if rewritten then markRewritten else 0)

end Sys2Proof.Machine
end

