-- ==== Sys2Proof/Machine/Channel.lean ====
section
/-! DEFINITION. The Channel Engine: matching, classification and correction of a SAMPLE, the health machine of a slot,
its evaluation at a cycle end and at a stall (chapters 1 and 2). -/

namespace Sys2Proof.Machine

/-! ## Positions (section 4.1 to 4.3) -/

/-- The wrap difference of two positions, in −32768..32767. -/
def wrapDiff (p q : Word) : Int := (p - q).toInt

/-- The magnitude of the wrap difference; that of −32768 is 32768. -/
def wrapMagnitude (p q : Word) : Nat := (wrapDiff p q).natAbs

/-- Truncation to a resolution: rounded down to a multiple of 2^(16 − resolution). -/
def truncateTo (resolution : Nat) (p : Word) : Word :=
  BitVec.ofNat 16 (p.toNat / 2 ^ (16 - resolution) * 2 ^ (16 - resolution))

/-- Saturation to −32768..32767. -/
def saturate (x : Int) : Int := max (-32768) (min x 32767)

/-! ## Correction (R10 to R13) -/

/-- The corrected position: offset then truncation, or truncation alone for a SAMPLE that arrived rewritten (R10,
R12). -/
def correctedPosition (r : SlotRecord) (m : Sample) : Word :=
  truncateTo r.resolution (if isRewritten m.marks then m.position else m.position + r.positionOffset)

/-- The corrected component a (R11, R12). -/
def correctedA (r : SlotRecord) (m : Sample) : Int :=
  if isRewritten m.marks then m.a else saturate (m.a + r.offsetA)

/-- The corrected component b: offset, gain, division by 1024 rounded toward zero, saturation (R11, R12). -/
def correctedB (r : SlotRecord) (m : Sample) : Int :=
  if isRewritten m.marks then m.b else saturate (((m.b + r.offsetB) * r.gainB).tdiv 1024)

/-- The envelope metric: the sum of the squares of the corrected components, divided by 65536 and truncated (R13). -/
def envelopeMetric (a b : Int) : Nat := (a * a + b * b).toNat / 65536

/-! ## Matching and classification (R2, R4 to R6) -/

/-- The slot a SAMPLE's key matches among the configured records of a bank; a source address of 0, above 31 or equal to
the strap address matches none (R2). -/
def matchSlot (b : Bank) (strap : Strap) (address : Byte) (subchannel : Fin 4) : Option (Fin 32) :=
  if address.toNat = 0 ∨ 31 < address.toNat ∨ address = strapByte strap then none
  else (List.finRange 32).find? fun i =>
    b.slots[i].configured && decide (b.slots[i].node = address.toNat) && decide (b.slots[i].subchannel = subchannel)

/-- The outcome of a well-formed SAMPLE (R4). -/
inductive SampleOutcome where
  | unmapped
  | stale (slot : Fin 32)
  | kindMismatch (slot : Fin 32)
  | duplicate (slot : Fin 32)
  | valid (slot : Fin 32)
deriving DecidableEq, Repr

/-- The classification, its tests in the order of R4. -/
def classify (s : State) (m : Sample) : SampleOutcome :=
  match matchSlot s.activeBank s.pins.strap m.address m.subchannel with
  | none => .unmapped
  | some i =>
    if s.cycle.link ≠ .opened ∨ s.cycle.currentCycle ≠ some m.cycle then .stale i
    else if m.kind ≠ (s.slotRecord i).kind then .kindMismatch i
    else if (s.slot i).indication then .duplicate i
    else .valid i

/-- The classification counter of an outcome advanced; a valid SAMPLE advances none of the five (R4, R8). -/
def countOutcome (o : SampleOutcome) (c : SampleCounters) : SampleCounters :=
  match o with
  | .unmapped => { c with unmapped := satInc c.unmapped }
  | .stale _ => { c with stale := satInc c.stale }
  | .kindMismatch _ => { c with kindMismatch := satInc c.kindMismatch }
  | .duplicate _ => { c with duplicate := satInc c.duplicate }
  | .valid _ => c

/-! ## The health machine (R22 to R36) -/

/-- All four counts are zero (R37). -/
def SlotState.quiet (d : SlotState) : Bool :=
  decide (d.missing = 0 ∧ d.envelope = 0 ∧ d.rate = 0 ∧ d.mismatch = 0)

/-- Entry into FAULTED: the cause recorded, counts, good-run count and hold zero, last-position record absent (R22). -/
def SlotState.enterFaulted (d : SlotState) (cause : FaultCause) : SlotState :=
  { d with health := .faulted cause, missing := 0, envelope := 0, rate := 0, mismatch := 0, goodRun := 0, hold := 0,
           lastPosition := none }

/-- A slot placed in a state other than FAULTED with everything of the health machine cleared; the valid-sample total
and the indication stay. -/
def SlotState.restartIn (d : SlotState) (health : Health) : SlotState :=
  { d with health, missing := 0, envelope := 0, rate := 0, mismatch := 0, goodRun := 0, hold := 0,
           lastPosition := none }

/-- The follow step: a slot of the pair is in TRACKING exactly when its counts are all zero (R23 step 6, R37). -/
def SlotState.follow (d : SlotState) : SlotState :=
  if d.health.inPair then { d with health := if d.quiet then .tracking else .suspect } else d

/-- Whether a valid sample makes the entry step: from ACQUIRING, or FAULTED with cause LOST or STALL (R23 step 1). -/
def Health.makesEntry : Health → Bool
  | .acquiring => true
  | .faulted .lost => true
  | .faulted .stall => true
  | _ => false

/-- The entry step: to SETTLING with the full hold, or to TRACKING when the settling hold is 0 (R24, R25). -/
def entryStep (r : SlotRecord) (d : SlotState) : SlotState :=
  if d.health.makesEntry then
    { d with health := if r.settlingHold = 0 then .tracking else .settling, hold := r.settlingHold }
  else d

/-- Whether a sample is an envelope excursion of its slot (R30). -/
def isExcursion (r : SlotRecord) (metric : Nat) : Bool :=
  decide (r.kind = .pair) && (decide (metric < r.envelopeLow) || decide (r.envelopeHigh < metric))

/-- The states in which the envelope is checked: SETTLING, TRACKING and SUSPECT (R21, R30). -/
def Health.isJudged (h : Health) : Bool := decide (h = .settling) || h.inPair

/-- The envelope check of a PAIR slot: an excursion raises the envelope count, which may fault the slot; a good sample
advances the good run, which at the decay run, or past it after a swap, removes one count (R30 to R32). -/
def envelopeStep (r : SlotRecord) (metric : Nat) (d : SlotState) : SlotState :=
  if r.kind = .pair ∧ d.health.isJudged = true then
    if isExcursion r metric then
      if d.envelope + 1 = r.envelopeLimit then d.enterFaulted .envelope
      else { d with envelope := d.envelope + 1, goodRun := 0 }
    else if r.decayRun ≤ d.goodRun + 1 then { d with goodRun := 0, envelope := d.envelope - 1 }
    else { d with goodRun := d.goodRun + 1 }
  else d

/-- The rate check of a slot of the pair whose last-position record is from the cycle before (R33, R34). -/
def rateStep (r : SlotRecord) (position cycle : Word) (d : SlotState) : SlotState :=
  if d.health.inPair then
    match d.lastPosition with
    | some (last, lastCycle) =>
      if lastCycle + 1 = cycle then
        if r.rateLimit < wrapMagnitude position last then
          if d.rate + 1 = r.ratePersistence then d.enterFaulted .rate else { d with rate := d.rate + 1 }
        else { d with rate := 0 }
      else d
    | none => d
  else d

/-- The hold step of a slot that was in SETTLING before the sample: retriggered by an excursion, else counted down; at 0
the slot leaves SETTLING (R35). -/
def holdStep (r : SlotRecord) (excursion entered : Bool) (d : SlotState) : SlotState :=
  if d.health = .settling ∧ entered = false then
    let hold := if excursion then r.settlingHold else d.hold - 1
    if hold = 0 then { d with hold := 0, health := if d.quiet then .tracking else .suspect }
    else { d with hold }
  else d

/-- The last-position record after a judgement: the sample's, or absent when the slot has faulted (R9). -/
def recordPosition (position cycle : Word) (d : SlotState) : SlotState :=
  if d.health.isFaulted then { d with lastPosition := none } else { d with lastPosition := some (position, cycle) }

/-- The judgement of a valid sample: entry step, missing reset, envelope check, rate check, hold step, follow step; a step
that faults the slot ends it (R23). -/
def judge (r : SlotRecord) (position cycle : Word) (metric : Nat) (d : SlotState) : SlotState :=
  let entered := d.health.makesEntry
  let d1 := { entryStep r d with missing := 0 }
  let d2 := envelopeStep r metric d1
  let d4 :=
    if d2.health.isFaulted then d2
    else
      let d3 := rateStep r position cycle d2
      if d3.health.isFaulted then d3 else (holdStep r (isExcursion r metric) entered d3).follow
  recordPosition position cycle d4

/-- The HEALTH records of a judgement: the entry's first, then the change from the state reached by the entry to the
final state (R46). -/
def judgeRecords (r : SlotRecord) (i : Fin 32) (before after : Health) (afterEntry : Health) :
    List (Fin 4 × Detail) :=
  healthRecord r i before afterEntry (changeCause before afterEntry) ++
  healthRecord r i afterEntry after (changeCause afterEntry after)

/-! ## The evaluation at a cycle end (R28, R38, R39) -/

/-- The missing phase of one slot (R28). -/
def missingStep (r : SlotRecord) (d : SlotState) : SlotState :=
  if d.indication then d
  else
    match d.health with
    | .settling =>
      if d.missing + 1 = r.missingLimit then d.enterFaulted .lost
      else { d with missing := d.missing + 1, hold := r.settlingHold }
    | .tracking =>
      if d.missing + 1 = r.missingLimit then d.enterFaulted .lost
      else { d with missing := d.missing + 1, health := .suspect }
    | .suspect =>
      if d.missing + 1 = r.missingLimit then d.enterFaulted .lost else { d with missing := d.missing + 1 }
    | _ => d

/-- The other slot of a partner pair of a bank: both configured, each naming the other (R38). -/
def partnerOfSlot (b : Bank) (i : Fin 32) : Option (Fin 32) :=
  if b.slots[i].configured then
    match b.slots[i].partner with
    | some j => if j ≠ i ∧ b.slots[j].configured = true ∧ b.slots[j].partner = some i then some j else none
    | none => none
  else none

/-- Whether a slot of a pair can be checked at a cycle end (R38). -/
def SlotState.checkable (d : SlotState) : Bool := d.health.inPair && d.indication

/-- The partner phase of slot `i`, from the states the missing phase left: a checked pair raises or clears both mismatch
counts, and faults both slots when either count reaches the persistence; tolerance and persistence are the lower-numbered
slot's (R38, R39). -/
def partnerStep (b : Bank) (slots : Fin 32 → SlotState) (i : Fin 32) : SlotState :=
  match partnerOfSlot b i with
  | none => slots i
  | some j =>
    let lower := b.slots[min i j]
    if (slots i).checkable && (slots j).checkable then
      match (slots i).lastPosition, (slots j).lastPosition with
      | some (p, _), some (q, _) =>
        if lower.mismatchTolerance < wrapMagnitude p q then
          if (slots i).mismatch + 1 = lower.mismatchPersistence ∨
              (slots j).mismatch + 1 = lower.mismatchPersistence then (slots i).enterFaulted .mismatch
          else { slots i with mismatch := (slots i).mismatch + 1 }.follow
        else { slots i with mismatch := 0 }.follow
      | _, _ => slots i
    else slots i

/-- A stall's effect on one slot: SETTLING, TRACKING and SUSPECT go to FAULTED(STALL) (R41). -/
def stallStep (d : SlotState) : SlotState :=
  match d.health with
  | .settling => d.enterFaulted .stall
  | .tracking => d.enterFaulted .stall
  | .suspect => d.enterFaulted .stall
  | _ => d

/-- The HEALTH records of a happening that changes several slots, in ascending slot index (R46). -/
def slotRecords (b : Bank) (before after : Fin 32 → SlotState) : List (Fin 4 × Detail) :=
  (List.finRange 32).flatMap fun i =>
    healthRecord b.slots[i] i (before i).health (after i).health
      (changeCause (before i).health (after i).health)

/-- The slots that leave the pair TRACKING and SUSPECT between two states (R65). -/
def leavers (before after : Fin 32 → SlotState) (i : Fin 32) : Bool :=
  (before i).health.inPair && !(after i).health.inPair

end Sys2Proof.Machine
end

