-- ==== Sys2Proof/Machine/Matcher.lean ====
section
/-! DEFINITION. The Event Matcher: windows and conditions, the latch machines, the leaving of tracking (chapter 3). -/

namespace Sys2Proof.Machine

/-- Whether the window [lo, hi] contains p (section 4.1). -/
def inWindow (lo hi p : Word) : Bool := decide ((p - lo).toNat ≤ (hi - lo).toNat)

/-- The core window of an entry contains p (R53). -/
def EntryRecord.inCore (r : EntryRecord) (p : Word) : Bool := inWindow r.lo r.hi p

/-- The extended window of an entry contains p (R53). -/
def EntryRecord.inExtended (r : EntryRecord) (p : Word) : Bool :=
  inWindow (r.lo - BitVec.ofNat 16 r.hysteresis) (r.hi + BitVec.ofNat 16 r.hysteresis) p

/-- The condition after an evaluation, by the tables of R54 and R55. -/
def nextCondition (form : EntryForm) (before : Condition) (inCore inExtended : Bool) : Condition :=
  match form with
  | .inside =>
    if inCore then .inWindow
    else if inExtended then (if before = .inWindow then .inWindow else .outWindow)
    else .outWindow
  | .outside =>
    if inCore then .outWindow
    else if inExtended then (if before = .inWindow then .inWindow else .outWindow)
    else .inWindow

/-- The condition of an entry after the delivery of p. -/
def EntryRecord.evaluate (r : EntryRecord) (before : Condition) (p : Word) : Condition :=
  nextCondition r.form before (r.inCore p) (r.inExtended p)

/-- The latch machines acting on a change of condition (R59 to R61). "Becomes IN" is from UNKNOWN or OUT to IN, "becomes
OUT" from IN to OUT (R56). -/
def nextLatch (mode : EntryMode) (latch : Latch) (before after : Condition) : Latch :=
  match mode, latch with
  | .level, .idle => if before ≠ .inWindow ∧ after = .inWindow then .active else .idle
  | .level, .active => if before = .inWindow ∧ after = .outWindow then .idle else .active
  | .latched, .idle => if before ≠ .inWindow ∧ after = .inWindow then .set else .idle
  | .latched, .deferred => if before = .inWindow ∧ after = .outWindow then .idle else .deferred
  | _, other => other

/-- The record an evaluation posts: ENTRY_SET on leaving IDLE, ENTRY_CLEARED on returning to it, at the entry's priority
(R59 to R61, R73). -/
def evaluationRecord (r : EntryRecord) (i : Fin 64) (p : Word) (before after : Latch) : List (Fin 4 × Detail) :=
  if before = .idle ∧ after ≠ .idle then [(r.priority, .entrySet i r.slot p)]
  else if before = .active ∧ after = .idle then [(r.priority, .entryCleared i r.slot .condition)]
  else if before = .deferred ∧ after = .idle then [(r.priority, .entryCleared i r.slot .acknowledged)]
  else []

/-- An entry after the delivery of p (R57). -/
def evaluateEntry (r : EntryRecord) (p : Word) (e : EntryState) : EntryState :=
  let condition := r.evaluate e.condition p
  { condition, latch := nextLatch r.mode e.latch e.condition condition }

/-- The evaluation of a slot's used entries on a delivered position, with its records in ascending entry index (R57). -/
def deliver (slot : Fin 32) (p : Word) (s : State) : State :=
  let concerned := fun i : Fin 64 => (s.entryRecord i).used && decide ((s.entryRecord i).slot = slot)
  let after := fun i : Fin 64 => if concerned i then evaluateEntry (s.entryRecord i) p (s.entry i) else s.entry i
  let records := (List.finRange 64).flatMap fun i =>
    if concerned i then evaluationRecord (s.entryRecord i) i p (s.entry i).latch (after i).latch else []
  postAll records (s.withEntries after)

/-- An entry whose slot leaves tracking (R65). -/
def leaveEntry (e : EntryState) : EntryState :=
  { condition := .unknown,
    latch := match e.latch with
      | .idle => .idle
      | .active => .idle
      | .set => .set
      | .deferred => .set }

/-- The record of an entry whose slot leaves tracking: an ACTIVE one posts ENTRY_CLEARED with cause CHANNEL (R65). -/
def leaveRecord (r : EntryRecord) (i : Fin 64) (e : EntryState) : List (Fin 4 × Detail) :=
  if e.latch = .active then [(r.priority, .entryCleared i r.slot .channel)] else []

/-- The entries of the slots that leave tracking, with their records in ascending entry index across those slots (R65,
R67). -/
def leaveTracking (left : Fin 32 → Bool) (s : State) : State :=
  let concerned := fun i : Fin 64 => (s.entryRecord i).used && left (s.entryRecord i).slot
  let records := (List.finRange 64).flatMap fun i =>
    if concerned i then leaveRecord (s.entryRecord i) i (s.entry i) else []
  postAll records (s.withEntries fun i => if concerned i then leaveEntry (s.entry i) else s.entry i)

/-- A happening of the Channel Engine over all slots: the slots' new states, their HEALTH records in ascending slot
index, given, and then the entries of the slots that left tracking (R46, R67). -/
def changeSlots (after : Fin 32 → SlotState) (records : List (Fin 4 × Detail)) (s : State) : State :=
  leaveTracking (leavers s.slot after) (postAll records (s.withSlots after))

/-- The Channel Engine's end-of-cycle evaluation: the missing phase, then the partner phase, then the entries of the slots
that left tracking in either (R28, R38, R67, R85 phase 4). The partner phase's records stand in ascending slot index: DEDUCED,
unsafe (log 11). -/
def evaluateCycleEnd (s : State) : State :=
  let b := s.activeBank
  let missed := fun i : Fin 32 => missingStep b.slots[i] (s.slot i)
  let checked := partnerStep b missed
  changeSlots checked (slotRecords b s.slot missed ++ slotRecords b missed checked) s

/-- The Channel Engine's part of a stall (R41). -/
def stallSlots (s : State) : State :=
  let after := fun i : Fin 32 => stallStep (s.slot i)
  changeSlots after (slotRecords s.activeBank s.slot after) s

/-! ## Taking a SAMPLE (R3, R4, R14 to R17) -/

/-- The taking of a valid SAMPLE, phases 1 to 5 of R14. -/
def takeValid (i : Fin 32) (m : Sample) (s : State) : State :=
  let r := s.slotRecord i
  let d := s.slot i
  let counted := { d with validTotal := d.validTotal + 1, indication := true }
  if d.health.isLatchedFault then s.withSlot i counted
  else
    let p := correctedPosition r m
    let after := judge r p m.cycle (envelopeMetric (correctedA r m) (correctedB r m)) counted
    let afterEntry := (entryStep r counted).health
    let judged := postAll (judgeRecords r i d.health after.health afterEntry) (s.withSlot i after)
    let told :=
      if afterEntry.inPair && !after.health.inPair then
        leaveTracking (fun j => decide (j = i)) judged
      else judged
    if after.health.inPair then deliver i p told else told

/-- The body of a mapped SAMPLE as it is forwarded: marks with the slot's health as it then stands, and the corrected
position when the slot's REWRITE applies (R15, R16). -/
def forwardedBody (r : SlotRecord) (health : Health) (valid : Bool) (m : Sample) (body : List Byte) : List Byte :=
  let rewrite := valid && r.rewrite && !isRewritten m.marks
  rewriteBody body (writtenMarks m.marks health.name (rewrite || isRewritten m.marks))
    (if rewrite then some (correctedPosition r m) else none)

/-- The Channel Engine takes a SAMPLE in MONITOR: the state it leaves and the body to forward, none when the frame is
forwarded with its arriving check (R3, R4, R17). -/
def takeSample (address : Byte) (body : List Byte) (s : State) : State × Option (List Byte) :=
  match parseSample address body with
  | none =>
    (s.withChannels { s.channels with
      counters := { s.channels.counters with malformed := satInc s.channels.counters.malformed } }, none)
  | some m =>
    let o := classify s m
    let s := s.withChannels { s.channels with counters := countOutcome o s.channels.counters }
    match o with
    | .unmapped => (s, none)
    | .stale i => (s, some (forwardedBody (s.slotRecord i) (s.slot i).health false m body))
    | .kindMismatch i => (s, some (forwardedBody (s.slotRecord i) (s.slot i).health false m body))
    | .duplicate i => (s, some (forwardedBody (s.slotRecord i) (s.slot i).health false m body))
    | .valid i =>
      let t := settleLines (takeValid i m s)
      (t, some (forwardedBody (s.slotRecord i) (t.slot i).health true m body))

end Sys2Proof.Machine
end

