-- ==== Sys2Proof/Machine/Banks.lean ====
section
/-! DEFINITION. The Configuration Controller: validation of a bank, the swap with its carry-over, the application of a mode
change (chapter 7). -/

namespace Sys2Proof.Machine

/-! ## Validation (R141) -/

/-- The first check code whose check fails, given each code with whether its check passes. -/
def firstFailure (checks : List (Nat × Bool)) : Option Nat := (checks.find? fun c => !c.2).map Prod.fst

/-- The partner of a slot satisfies a test, or is absent. -/
def partnerPasses (b : Bank) (r : SlotRecord) (test : SlotRecord → Bool) : Bool :=
  match r.partner with
  | none => true
  | some j => test b.slots[j]

/-- The checks of a channel slot record, in the order of their codes (R141). -/
def slotFailure (b : Bank) (strap : Strap) (i : Fin 32) : Option Nat :=
  let r := b.slots[i]
  if r.configured then
    firstFailure
      [(1, r.inRange),
       (2, decide (r.node ≠ strap.toNat)),
       (3, (List.finRange 32).all fun j =>
          !(decide (j < i) && b.slots[j].configured && decide (b.slots[j].node = r.node) &&
            decide (b.slots[j].subchannel = r.subchannel))),
       (4, decide (r.kind = .scalar →
          r.offsetA = 0 ∧ r.offsetB = 0 ∧ r.gainB = 1024 ∧ r.envelopeLow = 0 ∧ r.envelopeHigh = 0)),
       (5, decide (r.kind = .pair → r.envelopeLow < r.envelopeHigh)),
       (6, decide (r.partner ≠ some i)),
       (7, partnerPasses b r fun q => q.configured),
       (8, partnerPasses b r fun q => decide (q.partner = some i)),
       (9, partnerPasses b r fun q => decide (q.resolution = r.resolution)),
       (10, partnerPasses b r fun q =>
          decide (q.mismatchTolerance = r.mismatchTolerance ∧ q.mismatchPersistence = r.mismatchPersistence))]
  else firstFailure [(1, r.inRange)]

/-- The checks of an event entry record, in the order of their codes (R141). -/
def entryFailure (b : Bank) (i : Fin 64) : Option Nat :=
  let r := b.entries[i]
  let q := b.slots[r.slot]
  if r.used then
    firstFailure
      [(1, r.inRange),
       (11, q.configured),
       (12, decide (r.lo.toNat % 2 ^ (16 - q.resolution) = 0 ∧ r.hi.toNat % 2 ^ (16 - q.resolution) = 0)),
       (13, decide ((r.hi - r.lo).toNat + 2 * r.hysteresis ≤ 65535))]
  else firstFailure [(1, r.inRange)]

/-- The checks of the link record, in the order of their codes (R141). -/
def linkFailure (l : LinkRecord) : Option Nat :=
  firstFailure
    [(1, l.inRange),
     (14, decide (l.periodMinimum ≠ 0 ∧ l.periodMaximum ≠ 0 → l.periodMinimum < l.periodMaximum)),
     (15, decide (l.periodMaximum ≠ 0 → l.closeDeadline.toNat < l.periodMaximum.toNat))]

/-- The first offending record of a bank with the code of the check it fails: slots, then entries, then the link record,
each in ascending index (R141). -/
def validate (b : Bank) (strap : Strap) : Option (Table × Nat × Nat) :=
  match (List.finRange 32).findSome? fun i => (slotFailure b strap i).map fun c => (Table.slot, i.val, c) with
  | some f => some f
  | none =>
    match (List.finRange 64).findSome? fun i => (entryFailure b i).map fun c => (Table.entry, i.val, c) with
    | some f => some f
    | none => (linkFailure b.link).map fun c => (Table.link, 0, c)

/-! ## Carry-over of slots (R146, R147) -/

/-- Whether two records of a slot index have the same identity: the same configured field, key, kind and resolution, or
configured in neither bank (R146). -/
def sameSlotIdentity (old new : SlotRecord) : Bool :=
  decide (old.configured = new.configured) &&
  (!new.configured || decide (old.node = new.node ∧ old.subchannel = new.subchannel ∧ old.kind = new.kind ∧
    old.resolution = new.resolution))

/-- A count that is not below its new limit is set to the new limit minus 1 (R147). -/
def clampCount (limit count : Nat) : Nat := if limit ≤ count then limit - 1 else count

/-- A slot kept across a swap: counts clamped to the new limits, the mismatch count cleared when the partner changed or is
gone, the hold remaining cut to the new settling hold, and SUSPECT with all counts zero made TRACKING (R147). -/
def keepSlot (old new : SlotRecord) (d : SlotState) : SlotState :=
  let clamped := { d with
    missing := clampCount new.missingLimit d.missing
    envelope := clampCount new.envelopeLimit d.envelope
    rate := clampCount new.ratePersistence d.rate
    mismatch := if new.partner = none ∨ new.partner ≠ old.partner then 0
      else clampCount new.mismatchPersistence d.mismatch
    hold := min d.hold new.settlingHold }
  if d.health = .suspect ∧ clamped.quiet = true then { clamped with health := .tracking } else clamped

/-- A slot at a swap in MONITOR (R146, R147). -/
def carrySlot (old new : SlotRecord) (d : SlotState) : SlotState :=
  if sameSlotIdentity old new then (if new.configured then keepSlot old new d else d)
  else { d.restartIn (if new.configured then .acquiring else .unused) with validTotal := 0 }

/-- A slot at a swap in STANDBY: the total of a slot whose identity changes is set to zero (R149). -/
def carryStandby (old new : SlotRecord) (d : SlotState) : SlotState :=
  if sameSlotIdentity old new then d else { d with validTotal := 0 }

/-- The HEALTH records of a swap, in ascending slot index, each with cause COMMIT (R145 phase 2, R146, R147). -/
def swapSlotRecords (new : Bank) (before after : Fin 32 → SlotState) : List (Fin 4 × Detail) :=
  (List.finRange 32).flatMap fun i =>
    healthRecord new.slots[i] i (before i).health (after i).health .commit

/-! ## Carry-over of entries (R68, R69, R148) -/

/-- Whether two records of an entry index have the same identity (R68). -/
def sameEntryIdentity (old new : EntryRecord) : Bool :=
  decide (old.used = new.used ∧ old.slot = new.slot ∧ old.form = new.form ∧ old.lo = new.lo ∧ old.hi = new.hi ∧
    old.hysteresis = new.hysteresis ∧ old.mode = new.mode)

/-- An entry at a swap in MONITOR: reset on a change of identity, treated as leaving tracking when its slot leaves, else
kept (R68, R69, R148). -/
def carryEntry (old new : EntryRecord) (left : Fin 32 → Bool) (e : EntryState) : EntryState :=
  if sameEntryIdentity old new then (if new.used && left new.slot then leaveEntry e else e) else .cleared

/-- The record of an entry at a swap: ENTRY_RESET, priority 2, with the latch state it held, or ENTRY_CLEARED(CHANNEL), or
none (R68, R69, R148). -/
def carryRecord (old new : EntryRecord) (left : Fin 32 → Bool) (i : Fin 64) (e : EntryState) :
    List (Fin 4 × Detail) :=
  if sameEntryIdentity old new then (if new.used && left new.slot then leaveRecord new i e else [])
  else if e.latch = .idle then [] else [(2, .entryReset i e.latch)]

/-! ## The swap (R145, R149) -/

/-- Phases 2 and 3 of a swap in MONITOR, the banks having exchanged roles: the slots and the entries carried over, with
their records (R145). -/
def carryOver (old : Bank) (s : State) : State :=
  let new := s.activeBank
  let slots := fun i : Fin 32 => carrySlot old.slots[i] new.slots[i] (s.slot i)
  let left := leavers s.slot slots
  let entries := fun i : Fin 64 => carryEntry old.entries[i] new.entries[i] left (s.entry i)
  let records := swapSlotRecords new s.slot slots ++
    (List.finRange 64).flatMap fun i => carryRecord old.entries[i] new.entries[i] left i (s.entry i)
  postAll records ((s.withSlots slots).withEntries entries)

/-- The carry-over of a swap in either mode (R145, R149). -/
def carryBanks (old : Bank) (s : State) : State :=
  match s.config.mode with
  | .monitor => settleLines (carryOver old s)
  | .standby => s.withSlots fun i => carryStandby old.slots[i] s.activeBank.slots[i] (s.slot i)

/-- The completion of the pending commit at a swap: the generation rises, the tag becomes the last completed commit, the
COMMIT's holding slot is freed, and its response DONE is posted with the generation and the bank now active (R145 phases 5
and 6, R169). -/
def completeCommit (tag : Byte) (s : State) : State :=
  let generation := s.config.generation + 1
  let response : Response :=
    { tag, kind := RequestKind.commit.code, outcome := .done, reason := .none,
      data := bytes16 generation ++ [s.config.active.code] }
  (s.withConfig { s.config with generation, pendingCommit := none, lastCommit := some tag }).withCommands
    ((s.commands.release RequestKind.commit.code).respond response)

/-- The swap of a cycle start: made when a commit is pending (R84 step 2, R145). -/
def swapBanks (s : State) : State :=
  match s.config.pendingCommit with
  | none => s
  | some tag =>
    completeCommit tag
      (carryBanks s.activeBank (s.withConfig { s.config with active := s.config.active.other }))

/-! ## Mode changes (R47, R48, R74, R151) -/

/-- Whether a bank has a configured slot. -/
def Bank.hasConfigured (b : Bank) : Bool := (List.finRange 32).any fun i => b.slots[i].configured

/-- The response of the pending SET_MODE posted and its holding slot freed, no mode change pending afterwards (R151). -/
def completeMode (tag : Byte) (outcome : RequestOutcome) (reason : Reason) (s : State) : State :=
  (s.withConfig { s.config with pendingMode := none }).withCommands
    ((s.commands.release RequestKind.setMode.code).respond
      { tag, kind := RequestKind.setMode.code, outcome, reason, data := [] })

/-- Entry to MONITOR: configured slots to ACQUIRING, the others UNUSED, indications clear, totals kept (R47). -/
def enterMonitor (s : State) : State :=
  let b := s.activeBank
  (s.withConfig { s.config with mode := .monitor }).withSlots fun i =>
    { (s.slot i).restartIn (if b.slots[i].configured then .acquiring else .unused) with indication := false }

/-- Entry to STANDBY: every slot to UNUSED, its indication clear and its total kept, and every entry to IDLE with condition
UNKNOWN (R48, R74). -/
def enterStandby (s : State) : State :=
  ((s.withConfig { s.config with mode := .standby }).withSlots fun i =>
    { (s.slot i).restartIn .unused with indication := false }).withEntries fun _ => .cleared

/-- The mode change of a cycle start, applied after any swap: refused EMPTY_BANK, or made, posting MODE_CHANGED with
priority 2 (R84 step 3, R151, R152). -/
def applyMode (s : State) : State :=
  match s.config.pendingMode with
  | none => s
  | some (.monitor, tag) =>
    if s.activeBank.hasConfigured then
      completeMode tag .done .none (enterMonitor (post 2 (.modeChanged s.config.mode .monitor) s))
    else completeMode tag .refused .emptyBank s
  | some (.standby, tag) =>
    completeMode tag .done .none (enterStandby (post 2 (.modeChanged s.config.mode .standby) s))

end Sys2Proof.Machine
end

