-- ==== Sys2Proof/Machine/Relay.lean ====
section
/-! DEFINITION. The relay buffers of the Frame Path: admission, drop, the placing of end frames, departure (sections 9.4
to 9.7). -/

namespace Sys2Proof.Machine

/-- A forwarded frame, as against an end frame (section 9.5). -/
def InboundFrame.isForwarded (f : InboundFrame) : Bool := decide (f.cls = .forwarded)

/-- A frame that was received at SP, as against one the part originated (R189). -/
def InboundFrame.wasReceived (f : InboundFrame) : Bool :=
  decide (f.cls = .forwarded) || decide (f.cls = .closeReceived)

/-- The forwarded frames that occupy inbound places (R185). -/
def FramePath.forwardedCount (p : FramePath) : Nat := p.inbound.countP InboundFrame.isForwarded

/-- The end frames that occupy inbound places (R185). -/
def FramePath.endCount (p : FramePath) : Nat := p.inbound.countP fun f => !f.isForwarded

/-- A forwarded frame admitted to the inbound relay buffer, or dropped and counted (R185). -/
def admitInbound (bytes : List Byte) (s : State) : State :=
  let p := s.frames
  if p.forwardedCount < Config.forwardedPlaces ∧ p.inbound.length < Config.inboundPlaces then
    s.withFrames { p with inbound := p.inbound ++ [{ bytes, cls := .forwarded }] }
  else
    s.withFrames { p with counters := { p.counters with dropsInbound := satInc p.counters.dropsInbound } }

/-- Room made among frames that have not begun transmission, given youngest first: forwarded frames are removed, youngest
first, until `k` are gone or none is left (R186). -/
def removeForwarded : Nat → List InboundFrame → List InboundFrame
  | 0, frames => frames
  | _ + 1, [] => []
  | k + 1, f :: older => if f.isForwarded then removeForwarded k older else f :: removeForwarded (k + 1) older

/-- The inbound frames after room has been made for two end frames; the head is in transmission and stays (R186). -/
def makeRoom (frames : List InboundFrame) : List InboundFrame :=
  match frames with
  | [] => []
  | head :: rest =>
    head :: (removeForwarded (frames.length + 2 - Config.inboundPlaces) rest.reverse).reverse

/-- The two end frames of a cycle end placed behind every frame already placed, forwarded frames that have not begun
transmission being removed youngest first for want of room, each counted (R186). -/
def placeEnd (report : List Byte) (close : InboundFrame) (s : State) : State :=
  let p := s.frames
  let kept := makeRoom p.inbound
  s.withFrames { p with
    inbound := kept ++ [{ bytes := report, cls := .report }, close]
    counters := { p.counters with dropsInbound := satAdd p.counters.dropsInbound (p.inbound.length - kept.length) } }

/-- The departure of the head inbound frame: its place is freed and a received frame is counted as forwarded (R187,
R189). -/
def departInbound (p : FramePath) : FramePath :=
  match p.inbound with
  | [] => p
  | f :: rest =>
    { p with
      inbound := rest
      cpTicks := 0
      counters := if f.wasReceived then { p.counters with forwardedInbound := p.counters.forwardedInbound + 1 }
        else p.counters }

/-- The departure of the head outbound frame, when it has been handled and so is being transmitted (R184, R189). -/
def departOutbound (p : FramePath) : FramePath :=
  match p.outbound with
  | [] => p
  | f :: rest =>
    if f.handled then
      { p with outbound := rest, spTicks := 0,
               counters := { p.counters with forwardedOutbound := p.counters.forwardedOutbound + 1 } }
    else p

/-- The bad-check counter of a direction advanced (R180). -/
def countBad (outbound : Bool) (c : FrameCounters) : FrameCounters :=
  if outbound then { c with badOutbound := satInc c.badOutbound } else { c with badInbound := satInc c.badInbound }

/-- The state with a bad frame of a direction counted (R180, R189). -/
def countBadFrame (outbound : Bool) (s : State) : State :=
  s.withFrames { s.frames with counters := countBad outbound s.frames.counters }

end Sys2Proof.Machine
end

