-- ==== Sys2Proof/Machine/Reports.lean ====
section
/-! DEFINITION. The Report Builder: building a REPORT and applying an acknowledgement (chapter 6). -/

namespace Sys2Proof.Machine

/-! ## Layout of a REPORT (section 9.2) -/

/-- The kind code of a record. -/
def Detail.code : Detail → Byte
  | .entrySet .. => 1
  | .entryCleared .. => 2
  | .entryReset .. => 3
  | .health .. => 4
  | .cycleShort .. => 5
  | .cycleSkip .. => 6
  | .cycleOvertaken .. => 7
  | .closeMissed .. => 8
  | .closeLate .. => 9
  | .cycleStall .. => 10
  | .cycleResumed .. => 11
  | .capture .. => 12
  | .modeChanged .. => 13

/-- The detail bytes of a record, in order. -/
def Detail.bytes : Detail → List Byte
  | .entrySet e s p => [byteOf e.val, byteOf s.val] ++ bytes16 p
  | .entryCleared e s c => [byteOf e.val, byteOf s.val, c.code]
  | .entryReset e l => [byteOf e.val, l.code]
  | .health s l e c => [byteOf s.val, l.code, e.code, c.code]
  | .cycleShort t => bytes24 t
  | .cycleSkip e r => bytes16 e ++ bytes16 r
  | .cycleOvertaken c => bytes16 c
  | .closeMissed c => bytes16 c
  | .closeLate c => bytes16 c
  | .cycleStall t => bytes24 t
  | .cycleResumed c => bytes16 c
  | .capture t x l => bytes24 t ++ [x, l.code]
  | .modeChanged l e => [l.code, e.code]

/-- An event item, 12 bytes (section 9.2). -/
def SentEvent.bytes (i : SentEvent) : List Byte :=
  bytes16 i.record.sequence ++ bytes16 i.record.cycle ++
  [i.record.detail.code, byteOf (i.record.priority.val * 16 + i.sendCount)] ++
  (i.record.detail.bytes ++ List.replicate (6 - i.record.detail.bytes.length) 0)

/-- A response item: a head of 4 bytes, then the data (section 9.2). R124 speaks of the send count of a repeated item, for which
the layout has no field in a response item; the layout is followed, and a response item shows none: DESIGN CHOICE, unsafe
(log 23). -/
def SentResponse.bytes (i : SentResponse) : List Byte :=
  [i.response.tag, i.response.kind,
   (match i.response.outcome with | .done => 0 | .refused => 0x80) ||| i.response.reason.code,
   byteOf i.response.data.length] ++ i.response.data

/-- The body of a REPORT of the Sent Set as it stands, with the report number, the cycle number and the status block
given. -/
def reportBody (r : ReportBuilder) (cycle : Word) (status : List Byte) : List Byte :=
  [r.lastNumber] ++ bytes16 cycle ++ status ++ [byteOf r.sentEvents.length, byteOf r.sentResponses.length] ++
  r.sentEvents.flatMap SentEvent.bytes ++ r.sentResponses.flatMap SentResponse.bytes

/-! ## Building (R115 to R121) -/

/-- Whether an event item has not been sent four times (R115). -/
def SentEvent.isRetained (i : SentEvent) : Bool := decide (i.sendCount < Config.mostSendings)

/-- Whether a response item has not been sent four times (R115). -/
def SentResponse.isRetained (i : SentResponse) : Bool := decide (i.sendCount < Config.mostSendings)

/-- Phases 1 to 4 of a build: items sent four times are abandoned, their credits returned; the others are repeated; new
records and new responses are drawn, oldest first, into the places left (R115 to R118). -/
def drawItems (s : State) : State :=
  let r := s.reports
  let keptEvents := r.sentEvents.filter SentEvent.isRetained
  let keptResponses := r.sentResponses.filter SentResponse.isRetained
  let goneEvents := r.sentEvents.length - keptEvents.length
  let goneResponses := r.sentResponses.length - keptResponses.length
  let newEvents := s.queue.records.take (Config.reportEvents - keptEvents.length)
  let newResponses := s.commands.responses.take (Config.reportResponses - keptResponses.length)
  let reports := { r with
    sentEvents := keptEvents.map (fun i => { i with sendCount := i.sendCount + 1 }) ++
      newEvents.map (fun x => { record := x, sendCount := 1 })
    sentResponses := keptResponses.map (fun i => { i with sendCount := i.sendCount + 1 }) ++
      newResponses.map (fun x => { response := x, sendCount := 1 })
    abandoned := satAdd r.abandoned (goneEvents + goneResponses) }
  let queue := { s.queue with records := s.queue.records.drop newEvents.length }
  let commands := { s.commands with
    responses := s.commands.responses.drop newResponses.length
    freeCredits := s.commands.freeCredits + goneResponses }
  ((s.withReports reports).withQueue queue).withCommands commands

/-- The number of the next REPORT taken (R120 step 1). -/
def numberReport (s : State) : State :=
  s.withReports { s.reports with lastNumber := s.reports.lastNumber + 1 }

/-- The REPORT frame of the state in which the items have been drawn and the number taken (R120, R121, R181). -/
def reportFrame (s : State) : Frame where
  type := typeReport
  address := strapByte s.pins.strap
  body := reportBody s.reports s.cycleNumber (statusBlock s)

/-- The build of one REPORT: the state it leaves, with the count of commands dropped set to 0, and the bytes of the REPORT
(R114 to R121). -/
def buildReport (s : State) : State × List Byte :=
  let t := numberReport (drawItems s)
  (t.withReports { t.reports with droppedSinceReport := 0 }, (reportFrame t).bytes)

/-! ## Acknowledgement (R122, R123, R126) -/

/-- The report number of the first pair that names the part (R122). -/
def ackFor (strap : Strap) (acks : List (Byte × Byte)) : Option Byte :=
  (acks.find? fun a => decide (a.1 = strapByte strap)).map Prod.snd

/-- The acknowledgement list applied: a pair naming the part and the last report number empties the Sent Set and returns
one credit for each of its response items (R123, R126). -/
def applyAcks (acks : List (Byte × Byte)) (s : State) : State :=
  if ackFor s.pins.strap acks = some s.reports.lastNumber then
    (s.withReports { s.reports with sentEvents := [], sentResponses := [] }).withCommands
      { s.commands with freeCredits := s.commands.freeCredits + s.reports.sentResponses.length }
  else s

end Sys2Proof.Machine
end

