-- ==== Sys2Proof/Machine/Cycle.lean ====
section
/-! DEFINITION. The Cycle Tracker: the cycle end, the taking of an OPEN and of a CLOSE, the stall, the capture line
(chapter 4). -/

namespace Sys2Proof.Machine

/-- The state with one of the Cycle Tracker's counters changed (R96). -/
def countCycle (f : CycleCounters → CycleCounters) (s : State) : State :=
  s.withCycle { s.cycle with counters := f s.cycle.counters }

/-! ## The cycle end (R85) -/

/-- How a cycle ends: by the received CLOSE with its bytes, by deadline, or by overtaking (R85). -/
inductive CycleEnding where
  | close (bytes : List Byte)
  | deadline
  | overtaken
deriving DecidableEq, Repr

/-- The synthesized CLOSE of a cycle: SYNTHESIZED alone set, the strap address as monitor and as source (R87, R181). -/
def synthesizedClose (strap : Strap) (cycle : Word) : Frame where
  type := typeClose
  address := strapByte strap
  body := bytes16 cycle ++ [1, strapByte strap]

/-- The CLOSE an ending places: the one received, or a synthesized one (R86, R87). -/
def CycleEnding.closeFrame (e : CycleEnding) (s : State) : InboundFrame :=
  match e with
  | .close bytes => { bytes, cls := .closeReceived }
  | .deadline => { bytes := (synthesizedClose s.pins.strap s.cycleNumber).bytes, cls := .closeSynthesized }
  | .overtaken => { bytes := (synthesizedClose s.pins.strap s.cycleNumber).bytes, cls := .closeSynthesized }

/-- Phase 1 of a cycle end: the close-deadline timer stops and the link closes; the cycle number stays (R85). -/
def closeLink (s : State) : State := s.withCycle { s.cycle with link := .closed, deadlineTimer := none }

/-- Phase 2 of a cycle end: the finding of an end by deadline or by overtaking (R80, R85, R87). -/
def postFinding (e : CycleEnding) (s : State) : State :=
  match e with
  | .close _ => s
  | .deadline => post 3 (.closeMissed s.cycleNumber) s
  | .overtaken => post 3 (.cycleOvertaken s.cycleNumber) s

/-- Phase 3 of a cycle end: a filled capture slot is posted, with its own cycle number and link state OPEN, and emptied
(R94). -/
def postCapture (s : State) : State :=
  match s.cycle.captureSlot with
  | none => s
  | some c =>
    (s.withQueue (s.queue.post c.cycle 1 (.capture c.ticks c.extraEdges .opened))).withCycle
      { s.cycle with captureSlot := none }

/-- Phases 1 to 4 of a cycle end, after which the lines stand as the end leaves them (R85). -/
def settleCycle (e : CycleEnding) (s : State) : State :=
  settleLines (evaluateCycleEnd (postCapture (postFinding e (closeLink s))))

/-- The cycle end: phases 1 to 4, then the REPORT is built and placed with the CLOSE behind it (R85 to R87, R186). -/
def endCycle (e : CycleEnding) (s : State) : State :=
  let settled := settleCycle e s
  let built := buildReport settled
  placeEnd built.2 (e.closeFrame settled) built.1

/-! ## Taking an OPEN (R79 to R84) -/

/-- Phase 2: an open cycle ends as overtaken (R80). -/
def overtake (s : State) : State :=
  if s.cycle.link = .opened then
    endCycle .overtaken (countCycle (fun c => { c with overtaken := satInc c.overtaken }) s)
  else s

/-- Phase 3: the period check, made when the link was CLOSED or OPEN when the OPEN arrived (R81). -/
def checkPeriod (arrival : LinkState) (s : State) : State :=
  let minimum := s.activeBank.link.periodMinimum
  let measured := s.cycle.periodTimer.getD 0
  if (arrival = .closed ∨ arrival = .opened) ∧ minimum ≠ 0 ∧ measured < minimum then
    countCycle (fun c => { c with shortPeriods := satInc c.shortPeriods }) (post 3 (.cycleShort measured) s)
  else s

/-- Phase 4: the cycle-number check, made when the link was CLOSED or OPEN when the OPEN arrived (R82). -/
def checkNumber (arrival : LinkState) (received : Word) (s : State) : State :=
  let expected := s.cycleNumber + 1
  if (arrival = .closed ∨ arrival = .opened) ∧ received ≠ expected then
    countCycle (fun c => { c with skips := satInc c.skips }) (post 3 (.cycleSkip expected received) s)
  else s

/-- Phase 5: an OPEN taken while STALLED posts CYCLE_RESUMED and takes the link to CLOSED (R83). -/
def resume (received : Word) (s : State) : State :=
  if s.cycle.link = .stalled then
    let t := post 3 (.cycleResumed received) s
    settleLines (t.withCycle { t.cycle with link := .closed })
  else s

/-- Step 1 of the cycle start: every sample-this-cycle indication is cleared (R7, R84). -/
def clearIndications (s : State) : State := s.withSlots fun i => { s.slot i with indication := false }

/-- Steps 4 to 6 of the cycle start: the cycle number is taken, the period timer restarted from 0, the close-deadline timer
loaded from the active bank, the link OPEN; and the OPENs-taken counter advances (R84). -/
def openLink (received : Word) (s : State) : State :=
  s.withCycle { s.cycle with
    link := .opened
    currentCycle := some received
    periodTimer := some 0
    deadlineTimer := some s.activeBank.link.closeDeadline
    counters := { s.cycle.counters with opensTaken := satInc s.cycle.counters.opensTaken } }

/-- Phase 6: the new cycle starts, any swap and then any mode change applied (R84). -/
def startCycle (received : Word) (s : State) : State :=
  settleLines (openLink received (applyMode (swapBanks (clearIndications s))))

/-- The taking of a well-formed OPEN, in its six phases (R79 to R84). -/
def takeOpen (o : OpenBody) (s : State) : State :=
  let arrival := s.cycle.link
  startCycle o.cycle
    (resume o.cycle (checkNumber arrival o.cycle (checkPeriod arrival (overtake (applyAcks o.acks s)))))

/-- A malformed OPEN or CLOSE counted (R78). -/
def countMalformedLink (s : State) : State :=
  countCycle (fun c => { c with malformedLink := satInc c.malformedLink }) s

/-- An OPEN handed to the Cycle Tracker: malformed and counted, or taken (R78). -/
def handOpen (body : List Byte) (s : State) : State :=
  match parseOpen body with
  | none => countMalformedLink s
  | some o => takeOpen o s

/-! ## Taking a CLOSE (R86, R88) -/

/-- A late or stray CLOSE: discarded, recorded and counted (R88). -/
def lateClose (cycle : Word) (s : State) : State :=
  countCycle (fun c => { c with lateCloses := satInc c.lateCloses }) (post 3 (.closeLate cycle) s)

/-- A well-formed CLOSE ends the cycle when the link is OPEN and it carries the current number; else it is late or stray
(R86, R88). -/
def takeClose (cycle : Word) (bytes : List Byte) (s : State) : State :=
  if s.cycle.link = .opened ∧ s.cycle.currentCycle = some cycle then endCycle (.close bytes) s
  else lateClose cycle s

/-! ## The deadline and the stall (R87, R90, R91) -/

/-- The ticks a running period timer has advanced by `k`, saturating (R90). -/
def advancePeriod (k : Nat) (timer : Option Ticks) : Option Ticks := timer.map fun t => satAdd t k

/-- The moment the close-deadline timer runs out: the ticks it still had to run have passed (R87). A command sent before the
timer stands at 0 brings that moment with it: DESIGN CHOICE, unsafe (log 4). -/
def reachDeadline (s : State) : State :=
  s.withCycle { s.cycle with
    periodTimer := advancePeriod ((s.cycle.deadlineTimer.getD 0).toNat) s.cycle.periodTimer
    deadlineTimer := s.cycle.deadlineTimer.map fun _ => 0 }

/-- The end of a cycle by deadline (R87). -/
def deadlineEnd (s : State) : State :=
  endCycle .deadline (countCycle (fun c => { c with deadlineEnds := satInc c.deadlineEnds }) (reachDeadline s))

/-- Whether the link is supervised: OPEN or CLOSED, with a period maximum that is not 0 (R90). -/
def State.isSupervised (s : State) : Bool :=
  (decide (s.cycle.link = .opened) || decide (s.cycle.link = .closed)) &&
  decide (s.activeBank.link.periodMaximum ≠ 0)

/-- Entry into STALLED, the period timer standing at the period maximum (R91): DESIGN CHOICE, unsafe (log 4). An open cycle has
no end by it: DEDUCED, unsafe (log 5). -/
def stall (s : State) : State :=
  let maximum := s.activeBank.link.periodMaximum
  let stopped := s.withCycle { s.cycle with link := .stalled, deadlineTimer := none, periodTimer := some maximum }
  let posted := countCycle (fun c => { c with stalls := satInc c.stalls }) (post 3 (.cycleStall maximum) stopped)
  settleLines (stallSlots posted)

/-! ## The capture line (R92, R93, R195) -/

/-- A capture edge taken by the Cycle Tracker: it fills or extends the capture slot while OPEN, and posts a CAPTURE record
at once otherwise (R92, R93). -/
def takeEdge (s : State) : State :=
  match s.cycle.link with
  | .opened =>
    s.withCycle { s.cycle with captureSlot := some (match s.cycle.captureSlot with
      | none => { cycle := s.cycleNumber, ticks := s.cycle.periodTimer.getD 0, extraEdges := 0 }
      | some c => { c with extraEdges := satInc c.extraEdges }) }
  | link => post 1 (.capture (s.cycle.periodTimer.getD 0) 0 link) s

/-- A qualified edge of this tick: its sample found CAPTURE high and took the qualifier to HIGH; the edge is taken, or discarded
in the initialisation period (R195). -/
def qualifyEdge (s : State) : State :=
  let t := s.withPins { s.pins with qualifier := .high, capture := true, captureSampled := true }
  if s.pins.phase = .running then takeEdge t else t

/-- The qualifier after a sample of CAPTURE, by the table of R195; the third high sample takes it to HIGH. -/
def Qualifier.sample : Qualifier → Bool → Qualifier
  | _, false => .low
  | .low, true => .rising 1
  | .rising n, true => if n + 1 < Config.captureSamples then .rising (n + 1) else .high
  | .high, true => .high

/-- Whether a sample of CAPTURE qualifies an edge: in RISING, the third high one (R195). -/
def Qualifier.qualifies : Qualifier → Bool → Bool
  | .rising n, true => decide (Config.captureSamples ≤ n + 1)
  | _, _ => false

/-- The pins with this tick's sample of CAPTURE taken at the level the line has (R195). -/
def Pins.sampleCapture (p : Pins) : Pins :=
  { p with qualifier := p.qualifier.sample p.capture, captureSampled := true }

/-- Whether this tick's sample of CAPTURE has still to be taken and qualifies an edge (R195). -/
def Pins.edgeDue (p : Pins) : Bool := !p.captureSampled && p.qualifier.qualifies p.capture

/-- CAPTURE found at a level: the tick's one sample is taken, and its edge with it when it qualifies one; the level stays for
the samples of the ticks that follow (R195). -/
def findCapture (high : Bool) (s : State) : State :=
  let t := s.withPins { s.pins with capture := high }
  if s.pins.captureSampled then t
  else if s.pins.qualifier.qualifies high then qualifyEdge t
  else t.withPins t.pins.sampleCapture

end Sys2Proof.Machine
end

