-- ==== Sys2Proof/Machine/FramePath.lean ====
section
/-! DEFINITION. The frame commands: frames received at CP and at SP, frames sent, the release of a held OPEN (chapter 9), and
the taking of a management frame (section 8.2). -/

namespace Sys2Proof.Machine

/-- Whether the part is out of reset: receivers, transmitters and CAPTURE work (R194). -/
def State.isAwake (s : State) : Bool :=
  decide (s.pins.phase = .running) || decide (s.pins.phase = .initialising)

/-- Whether a run delivered at a port is received: out of reset, and its start not seen before the initialisation period began
(R190, R194). -/
def State.receives (s : State) (run : Run) : Bool := s.isAwake && !run.early

/-! ## Management frames (R157, R158) -/

/-- An accepted request placed WAITING as the youngest, taking a credit; its time begins when no other waits (R158,
R196). -/
def acceptRequest (q : Request) (c : CommandUnit) : CommandUnit :=
  { c with
    slots := c.slots ++ [{ request := q, pending := false }]
    freeCredits := c.freeCredits - 1
    requestTimer := if c.isWaiting then c.requestTimer else 0 }

/-- A taken management frame: malformed, accepted, or dropped for want of a holding slot or a credit (R157, R158, R177). -/
def takeMgmt (body : List Byte) (s : State) : State :=
  match body with
  | tag :: kind :: arguments =>
    if s.commands.slots.length < Config.holdingSlots ∧ 0 < s.commands.freeCredits then
      s.withCommands (acceptRequest { tag, kind, arguments } s.commands)
    else
      (s.withCommands { s.commands with dropped := satInc s.commands.dropped }).withReports
        { s.reports with droppedSinceReport := satInc s.reports.droppedSinceReport }
  | _ => s.withCommands { s.commands with malformed := satInc s.commands.malformed }

/-! ## The outbound direction (R182, R184, R185) -/

/-- Whether a frame received at CP is a management frame addressed to the part (R157, R182). -/
def isForPart (strap : Strap) (f : Frame) : Bool :=
  decide (f.type = typeMgmt) && decide (strap ≠ 0) && decide (f.address = strapByte strap)

/-- Whether a frame must be held at the head of the frames not yet handled: an intact OPEN, while more than 3 end frames
occupy inbound places (R185). The head is that of the frames not yet handled: DEDUCED, unsafe (log 12). -/
def mustHold (run : Run) (s : State) : Bool :=
  match intactFrame run with
  | some f => decide (f.type = typeOpen) && decide (Config.openHoldLimit < s.frames.endCount)
  | none => false

/-- The handling of one outbound frame: what its block makes of it, and whether it is forwarded (R180, R182). -/
def handleOutbound (run : Run) (s : State) : State × Bool :=
  match intactFrame run with
  | none => (s, true)
  | some f =>
    if f.type = typeOpen then (handOpen f.body s, true)
    else if isForPart s.pins.strap f then (takeMgmt f.body s, false)
    else (s, true)

/-- The frames not yet handled are handled one at a time, in the order of reception, until one must be held: the state that
leaves and the frames that keep their places (R184, R185). -/
def handleInTurn : List OutboundFrame → State → State × List OutboundFrame
  | [], s => (s, [])
  | f :: rest, s =>
    if f.handled then
      let r := handleInTurn rest s
      (r.1, f :: r.2)
    else if mustHold f.run s then (s, f :: rest)
    else
      let h := handleOutbound f.run s
      let r := handleInTurn rest h.1
      (r.1, if h.2 then { f with handled := true } :: r.2 else r.2)

/-- The outbound relay buffer handled as far as it can be. -/
def handleWaiting (s : State) : State :=
  let r := handleInTurn s.frames.outbound s
  r.1.withFrames { r.1.frames with outbound := r.2 }

/-- Whether a held OPEN stands at the head of the frames not yet handled (R185). -/
def State.holdsOpen (s : State) : Bool := s.frames.outbound.any fun f => !f.handled

/-- A frame entered in the outbound relay buffer, or dropped and counted (R184). -/
def enterOutbound (run : Run) (handled : Bool) (s : State) : State × Bool :=
  let p := s.frames
  if p.outbound.length < Config.outboundPlaces then
    (s.withFrames { p with outbound := p.outbound ++ [{ run, handled }] }, true)
  else
    (s.withFrames { p with counters := { p.counters with dropsOutbound := satInc p.counters.dropsOutbound } }, false)

/-- A run counted when it is bad (R180). -/
def judgeRun (outbound : Bool) (run : Run) (s : State) : State :=
  if intactFrame run = none then countBadFrame outbound s else s

/-- A run received at CP: judged; an over-long one discarded; else entered if a place is free and, out of the initialisation
period, handled in turn unless a held OPEN stands before it (R180, R184, R185, R190). An over-long run needs no place: DEDUCED,
unsafe (log 10). -/
def receiveCp (run : Run) (s : State) : State :=
  let judged := judgeRun true run s
  if Config.longestRun < run.bytes.length then judged
  else if s.pins.phase = .initialising then (enterOutbound run true judged).1
  else
    let entered := enterOutbound run false judged
    if entered.2 && !s.holdsOpen then handleWaiting entered.1 else entered.1

/-! ## The inbound direction (R183, R185) -/

/-- An intact frame received at SP is classified, handed, and admitted, placed or discarded (R183). -/
def handleInbound (f : Frame) (bytes : List Byte) (s : State) : State :=
  if f.type = typeSample ∧ s.config.mode = .monitor then
    let r := takeSample f.address f.body s
    admitInbound (match r.2 with
      | some body => ({ f with body } : Frame).bytes
      | none => bytes) r.1
  else if f.type = typeClose then
    match parseClose f.body with
    | none => admitInbound bytes (countMalformedLink s)
    | some cycle => takeClose cycle bytes s
  else admitInbound bytes s

/-- A run received at SP (R180, R183, R190). -/
def receiveSp (run : Run) (s : State) : State :=
  let judged := judgeRun false run s
  if Config.longestRun < run.bytes.length then judged
  else
    match intactFrame run with
    | some f => if s.pins.phase = .running then handleInbound f run.bytes judged else admitInbound run.bytes judged
    | none => admitInbound run.bytes judged

/-! ## The commands -/

/-- FRAME_RECEIVED_CP (R184): in reset the receivers take nothing (R194), and a frame begun before the initialisation period is
not received (R190). -/
def execFrameReceivedCp (run : Run) (s : State) : Host.Outcome State Fault Refusal :=
  .next (if s.receives run then receiveCp run s else s)

/-- FRAME_RECEIVED_SP (R183): in reset the receivers take nothing (R194), and a frame begun before the initialisation period is
not received (R190). -/
def execFrameReceivedSp (run : Run) (s : State) : Host.Outcome State Fault Refusal :=
  .next (if s.receives run then receiveSp run s else s)

/-- FRAME_SENT_CP (R187): the head inbound frame has left; without one nothing was being sent. -/
def execFrameSentCp (s : State) : Host.Outcome State Fault Refusal :=
  .next (if s.isAwake then s.withFrames (departInbound s.frames) else s)

/-- FRAME_SENT_SP (R184): the head outbound frame has left; without one nothing was being sent. -/
def execFrameSentSp (s : State) : Host.Outcome State Fault Refusal :=
  .next (if s.isAwake then s.withFrames (departOutbound s.frames) else s)

/-- OPEN_HOLD_RELEASE (R185): a held OPEN, at most 3 end frames occupying places, is handed and taken, and the frames behind
it are handled in turn. That this is due as soon as it may be is a DESIGN CHOICE, unsafe (log 12). -/
def execOpenHoldRelease (s : State) : Host.Outcome State Fault Refusal :=
  .next (if s.pins.phase = .running ∧ s.holdsOpen = true then handleWaiting s else s)

end Sys2Proof.Machine
end

