-- ==== Sys2Proof/Machine/Link.lean ====
section
/-! DEFINITION. The link commands: the close deadline, the period maximum, the capture line (chapter 4, R195). -/

namespace Sys2Proof.Machine

/-- CLOSE_DEADLINE_EXPIRY (R87): it ends an open cycle whose deadline timer runs; a stopped timer does not run out (R89). -/
def execCloseDeadlineExpiry (s : State) : Host.Outcome State Fault Refusal :=
  .next (if s.pins.phase = .running ∧ s.cycle.link = .opened ∧ s.cycle.deadlineTimer.isSome = true then deadlineEnd s
    else s)

/-- PERIOD_MAXIMUM_EXPIRY (R90, R91): a supervised link stalls. -/
def execPeriodMaximumExpiry (s : State) : Host.Outcome State Fault Refusal :=
  .next (if s.pins.phase = .running ∧ s.isSupervised = true then stall s else s)

/-- CAPTURE_EDGE (R92, R93, R195): a qualified edge, discarded in the initialisation period and not seen in reset; taken
whatever the qualifier holds: DESIGN CHOICE, unsafe (log 6). -/
def execCaptureEdge (s : State) : Host.Outcome State Fault Refusal :=
  .next (if s.isAwake then qualifyEdge s else s)

/-- CAPTURE_LINE_CHANGE (R195): CAPTURE is found at a level, and is this tick's sample unless the tick has had its one: DESIGN
CHOICE, unsafe (log 6). In reset the line moves and is not sampled (R194). -/
def execCaptureLineChange (high : Bool) (s : State) : Host.Outcome State Fault Refusal :=
  .next (if s.isAwake then findCapture high s else s.withPins { s.pins with capture := high })

end Sys2Proof.Machine
end

