-- ==== Sys2Proof/Machine/Requests.lean ====
section
/-! DEFINITION. The executions of management requests (chapter 8): the length test first, then the owner's tests in their
order. -/

namespace Sys2Proof.Machine

/-- The execution of the oldest waiting request when it is of the kind given, `none` standing for an unknown kind: refused
BAD_VALUE when its argument length does not fit, else carried out by `run` (R160, R162). A row of another kind than the
request's changes nothing: DESIGN CHOICE, unsafe (log 15). -/
def executeAs (kind : Option RequestKind) (run : Request → State → State) (s : State) : State :=
  if s.pins.phase = .running then
    match s.commands.next with
    | none => s
    | some q =>
      if requestKindOf q.kind = kind then
        match kind with
        | none => run q s
        | some k => if lengthFits k q.arguments then run q s else refuse q .badValue s
      else s
  else s

/-! ## READ_ENTRY (R138, R167) -/

/-- The bank a selector byte names: 0 ACTIVE, 1 SHADOW; with whether it is the active one. -/
def bankSelected (s : State) (selector : Byte) : Option (BankName × Bool) :=
  if selector = 0 then some (s.config.active, true)
  else if selector = 1 then some (s.config.active.other, false)
  else none

/-- The record data of a READ_ENTRY, none for an index beyond the table; an active entry's condition and latch state follow
its record (R52, R167). -/
def entryData (s : State) (name : BankName) (isActive : Bool) (table : Table) (index : Byte) : Option (List Byte) :=
  let b := s.config.bank name
  match table with
  | .slot => (indexOf 32 index).map fun i => b.slots[i].content
  | .entry => (indexOf 64 index).map fun i =>
      b.entries[i].content ++ (if isActive then [(s.entry i).condition.code, (s.entry i).latch.code] else [])
  | .link => if index = 0 then some b.link.content else none

/-- READ_ENTRY carried out: BAD_VALUE, BAD_INDEX, or DONE with the bank name, table, index and record (R138, R167). -/
def runReadEntry (q : Request) (s : State) : State :=
  match q.arguments with
  | [selector, table, index] =>
    match bankSelected s selector, tableOf table with
    | some (name, isActive), some t =>
      match entryData s name isActive t index with
      | some data => done q ([name.code, table, index] ++ data) s
      | none => refuse q .badIndex s
    | _, _ => refuse q .badValue s
  | _ => refuse q .badValue s

/-- READ_ENTRY. -/
def execReadEntry (s : State) : Host.Outcome State Fault Refusal := .next (executeAs (some .readEntry) runReadEntry s)

/-! ## WRITE_SHADOW and SYNC_SHADOW (R135, R137, R168) -/

/-- A bank with one record replaced by the content given: none when the content does not parse, that is when a field lies
outside its range (R135, R136). -/
def writeRecord (b : Bank) (table : Table) (index : Byte) (content : List Byte) : Option Bank :=
  match table with
  | .slot => do
    let i ← indexOf 32 index
    let r ← parseSlotRecord content
    some { b with slots := b.slots.set i r }
  | .entry => do
    let i ← indexOf 64 index
    let r ← parseEntryRecord content
    some { b with entries := b.entries.set i r }
  | .link => (parseLinkRecord content).map fun r => { b with link := r }

/-- WRITE_SHADOW carried out, its tests in the order of R135. -/
def runWriteShadow (q : Request) (s : State) : State :=
  match q.arguments with
  | table :: index :: content =>
    match tableOf table with
    | none => refuse q .badValue s
    | some t =>
      if t.size ≤ index.toNat then refuse q .badIndex s
      else if s.config.pendingCommit.isSome then refuse q .commitPending s
      else
        match writeRecord s.shadowBank t index content with
        | some b => done q [] (s.withShadowBank b)
        | none => refuse q .badValue s
  | _ => refuse q .badValue s

/-- WRITE_SHADOW. -/
def execWriteShadow (s : State) : Host.Outcome State Fault Refusal :=
  .next (executeAs (some .writeShadow) runWriteShadow s)

/-- SYNC_SHADOW carried out (R137). -/
def runSyncShadow (q : Request) (s : State) : State :=
  if s.config.pendingCommit.isSome then refuse q .commitPending s else done q [] (s.withShadowBank s.activeBank)

/-- SYNC_SHADOW. -/
def execSyncShadow (s : State) : Host.Outcome State Fault Refusal :=
  .next (executeAs (some .syncShadow) runSyncShadow s)

/-! ## COMMIT and ABORT_COMMIT (R140, R143) -/

/-- The executing request left PENDING in its holding slot, with its credit (R160). -/
def suspendRequest (s : State) : State :=
  s.withCommands { s.commands with slots := CommandUnit.suspend s.commands.slots, requestTimer := 0 }

/-- COMMIT carried out: COMMIT_PENDING, INVALID_BANK with the first offending record, or pending with its tag (R140,
R169). -/
def runCommit (q : Request) (s : State) : State :=
  if s.config.pendingCommit.isSome then refuse q .commitPending s
  else
    match validate s.shadowBank s.pins.strap with
    | some (table, index, code) => complete q .refused .invalidBank [table.code, byteOf index, byteOf code] s
    | none => suspendRequest (s.withConfig { s.config with pendingCommit := some q.tag })

/-- COMMIT. -/
def execCommit (s : State) : Host.Outcome State Fault Refusal := .next (executeAs (some .commit) runCommit s)

/-- The pending commit cancelled: its response REFUSED(ABORTED) posted and its holding slot freed (R143). -/
def cancelCommit (tag : Byte) (s : State) : State :=
  (s.withConfig { s.config with pendingCommit := none }).withCommands
    ((s.commands.release RequestKind.commit.code).respond
      { tag, kind := RequestKind.commit.code, outcome := .refused, reason := .aborted, data := [] })

/-- ABORT_COMMIT carried out (R143). -/
def runAbortCommit (q : Request) (s : State) : State :=
  match q.arguments with
  | [target] =>
    if s.config.pendingCommit = some target then done q [] (cancelCommit target s)
    else if s.config.lastCommit = some target then refuse q .tooLate s
    else refuse q .nonePending s
  | _ => refuse q .badValue s

/-- ABORT_COMMIT. -/
def execAbortCommit (s : State) : Host.Outcome State Fault Refusal :=
  .next (executeAs (some .abortCommit) runAbortCommit s)

/-! ## SET_MODE (R150) -/

/-- SET_MODE carried out: BAD_VALUE, MODE_PENDING, DONE at once, or pending with target and tag (R150). -/
def runSetMode (q : Request) (s : State) : State :=
  match q.arguments with
  | [target] =>
    match modeOf target with
    | none => refuse q .badValue s
    | some m =>
      if s.config.pendingMode.isSome then refuse q .modePending s
      else if m = s.config.mode then done q [] s
      else suspendRequest (s.withConfig { s.config with pendingMode := some (m, q.tag) })
  | _ => refuse q .badValue s

/-- SET_MODE. -/
def execSetMode (s : State) : Host.Outcome State Fault Refusal := .next (executeAs (some .setMode) runSetMode s)

/-! ## ACK_EVENT and ACK_CHANNEL (R43, R62, R63) -/

/-- The acknowledgement of an entry that is SET: DEFERRED while its condition is IN, else IDLE with
ENTRY_CLEARED(ACKNOWLEDGED); DONE with the result 1 CLEARED or 2 DEFERRED (R63). -/
def acknowledgeEntry (q : Request) (i : Fin 64) (s : State) : State :=
  let e := s.entry i
  let r := s.entryRecord i
  if e.condition = .inWindow then done q [2] (s.withEntry i { e with latch := .deferred })
  else
    done q [1] (settleLines (post r.priority (.entryCleared i r.slot .acknowledged)
      (s.withEntry i { e with latch := .idle })))

/-- ACK_EVENT carried out, its tests in the order of R62. -/
def runAckEvent (q : Request) (s : State) : State :=
  match q.arguments with
  | [index] =>
    if s.config.mode = .standby then refuse q .wrongMode s
    else
      match indexOf 64 index with
      | none => refuse q .badIndex s
      | some i =>
        if (s.entryRecord i).used = false then refuse q .badIndex s
        else if (s.entryRecord i).mode = .level then refuse q .notLatched s
        else
          match (s.entry i).latch with
          | .set => acknowledgeEntry q i s
          | .deferred => done q [2] s
          | _ => refuse q .notLatched s
  | _ => refuse q .badValue s

/-- ACK_EVENT. -/
def execAckEvent (s : State) : Host.Outcome State Fault Refusal := .next (executeAs (some .ackEvent) runAckEvent s)

/-- The release of a latched fault into ACQUIRING, with its HEALTH record carrying the cause removed (R43). -/
def releaseSlot (i : Fin 32) (cause : FaultCause) (s : State) : State :=
  settleLines (post 3 (.health i .faulted .acquiring (.fault cause))
    (s.withSlot i { s.slot i with health := .acquiring }))

/-- ACK_CHANNEL carried out, its tests in the order of R43. -/
def runAckChannel (q : Request) (s : State) : State :=
  match q.arguments with
  | [index] =>
    if s.config.mode = .standby then refuse q .wrongMode s
    else
      match indexOf 32 index with
      | none => refuse q .badIndex s
      | some i =>
        if (s.slotRecord i).configured = false then refuse q .badIndex s
        else
          match (s.slot i).health with
          | .faulted .lost => refuse q .notLatched s
          | .faulted .stall => refuse q .notLatched s
          | .faulted cause => done q [] (releaseSlot i cause s)
          | _ => refuse q .notFaulted s
  | _ => refuse q .badValue s

/-- ACK_CHANNEL. -/
def execAckChannel (s : State) : Host.Outcome State Fault Refusal :=
  .next (executeAs (some .ackChannel) runAckChannel s)

/-! ## READ_CHANNEL and READ_STATUS (R171, R172) -/

/-- READ_CHANNEL carried out (R171). -/
def runReadChannel (q : Request) (s : State) : State :=
  match q.arguments with
  | [index] =>
    match indexOf 32 index with
    | none => refuse q .badIndex s
    | some i => done q (s.slot i).data s
  | _ => refuse q .badValue s

/-- READ_CHANNEL. -/
def execReadChannel (s : State) : Host.Outcome State Fault Refusal :=
  .next (executeAs (some .readChannel) runReadChannel s)

/-- READ_STATUS carried out (R172). -/
def runReadStatus (q : Request) (s : State) : State := done q (statusData s) s

/-- READ_STATUS. -/
def execReadStatus (s : State) : Host.Outcome State Fault Refusal :=
  .next (executeAs (some .readStatus) runReadStatus s)

/-! ## CLEAR_COUNTERS and RESTART (R173, R174) -/

/-- The cumulative counters and the valid-sample totals set to zero (R173). -/
def zeroCounters (s : State) : State :=
  { s with
    cycle := { s.cycle with counters := .zero }
    channels := { slots := Vector.ofFn fun i => { s.slot i with validTotal := 0 }, counters := .zero }
    frames := { s.frames with counters := .zero }
    commands := { s.commands with dropped := 0, malformed := 0 }
    queue := { s.queue with lost := 0 }
    reports := { s.reports with abandoned := 0 } }

/-- CLEAR_COUNTERS carried out (R173). -/
def runClearCounters (q : Request) (s : State) : State := done q [] (zeroCounters s)

/-- CLEAR_COUNTERS. -/
def execClearCounters (s : State) : Host.Outcome State Fault Refusal :=
  .next (executeAs (some .clearCounters) runClearCounters s)

/-- Every block in its restart state: the banks, the active choice, the generation, the relay buffers and the pins kept; all
credits free but the one RESTART's own response holds; the lines negated (R20, R75, R98, R112, R130, R134, R174, R191). -/
def restartBlocks (s : State) : State :=
  { s with
    channels := .initial
    matcher := .initial
    cycle := .initial
    queue := .initial
    reports := .initial
    commands := { CommandUnit.initial with freeCredits := Config.credits - 1 }
    config := { s.config with pendingCommit := none, lastCommit := none, mode := .standby, pendingMode := none }
    frames := { s.frames with counters := .zero }
    lines := .negated }

/-- RESTART carried out: the blocks restart, then RESTART's own response is posted to the emptied Response Queue (R174). -/
def runRestart (q : Request) (s : State) : State :=
  let t := restartBlocks s
  t.withCommands (t.commands.respond { tag := q.tag, kind := q.kind, outcome := .done, reason := .none, data := [] })

/-- RESTART. -/
def execRestart (s : State) : Host.Outcome State Fault Refusal := .next (executeAs (some .restart) runRestart s)

/-! ## Unknown kinds (R162) -/

/-- A request of an unknown kind carried out: refused UNKNOWN_REQUEST, its kind byte as received (R162). -/
def runUnknown (q : Request) (s : State) : State := refuse q .unknownRequest s

/-- UNKNOWN_REQUEST. -/
def execUnknownRequest (s : State) : Host.Outcome State Fault Refusal := .next (executeAs none runUnknown s)

end Sys2Proof.Machine
end

