-- ==== Sys2Proof/Machine/Reset.lean ====
section
/-! DEFINITION. The reset commands: power-on, RESET_N, the initialisation period, the supplies (R190, R193, R194). -/

namespace Sys2Proof.Machine

/-- Entry into a reset: both transmitters stop and both relay buffers empty, uncounted; the lines are negated (R190,
R194). The blocks keep what they hold until the reset ends: DEDUCED, unsafe (log 8). -/
def enterReset (phase : Phase) (s : State) : State :=
  ((s.withFrames { s.frames with outbound := [], inbound := [], cpTicks := 0, spTicks := 0 }).withLines .negated).withPins
    { s.pins with phase }

/-- Leaving a reset: the straps are sampled, every block takes its reset state, the initialisation period begins (R193,
R194). -/
def leaveReset (straps : Strap) (s : State) : State :=
  (State.reset.withPins (s.pins.afterReset straps)).withPending s.pending

/-- Whether RESET_N has been found low on the 10 consecutive ticks that put or keep the part in reset (R194). -/
def Pins.holdsReset (p : Pins) : Bool := decide (Config.resetLowTicks ≤ p.resetLow)

/-- POWER_ON (R194): power-on reset ends once CLKIN has run 1000 ticks; while RESET_N is held low the part is then in the reset
of RESET_N, which RESET_RELEASE ends. Taken in every phase: DESIGN CHOICE, unsafe (log 7). -/
def execPowerOn (straps : Strap) (clkinTicks : Nat) (s : State) : Host.Outcome State Fault Refusal :=
  let left := leaveReset straps s
  .next (if clkinTicks < Config.powerOnTicks then s
    else if s.pins.holdsReset then left.withPins { left.pins with phase := .pinReset } else left)

/-- RESET_ENTRY (R194): RESET_N low on 10 consecutive ticks puts the part in reset, and in power-on reset is held for its end;
a shorter low level moves the count of low ticks alone, and nothing in the reset of RESET_N: DESIGN CHOICE, unsafe (log 7). -/
def execResetEntry (lowTicks : Nat) (s : State) : Host.Outcome State Fault Refusal :=
  let low := s.withPins { s.pins with resetLow := min lowTicks Config.resetLowTicks }
  .next (match s.pins.phase with
    | .powerOnReset => low
    | .pinReset => s
    | _ => if Config.resetLowTicks ≤ lowTicks then enterReset .pinReset low else low)

/-- RESET_RELEASE (R194): RESET_N is high again; the part leaves the reset of RESET_N, and power-on reset and a part that is not
in reset go on as they were. -/
def execResetRelease (straps : Strap) (s : State) : Host.Outcome State Fault Refusal :=
  let high := s.withPins { s.pins with resetLow := 0 }
  .next (if s.pins.phase = .pinReset then leaveReset straps high else high)

/-- INITIALISATION_END (R190): the initialisation period is over, its ticks all passed: DESIGN CHOICE, unsafe (log 4). -/
def execInitialisationEnd (s : State) : Host.Outcome State Fault Refusal :=
  .next (if s.pins.phase = .initialising then
      s.withPins { s.pins with phase := .running, initialisationTicks := Config.initialisationTicks }
    else s)

/-- SUPPLY_OUT_OF_LIMITS (R194): the part is in power-on reset until POWER_ON ends it. -/
def execSupplyOutOfLimits (s : State) : Host.Outcome State Fault Refusal := .next (enterReset .powerOnReset s)

end Sys2Proof.Machine
end

