-- ==== Sys2Proof/Machine/Dispatch.lean ====
section
/-! DEFINITION. The effect of a command on everything but the queue: one arm per row of the opcode table. -/

namespace Sys2Proof.Machine

def exec (i : Instr) (s : State) : Host.Outcome State Fault Refusal :=
  match i with
  | .powerOn straps clkinTicks => Sys2Proof.Machine.execPowerOn straps clkinTicks s
  | .resetEntry lowTicks => Sys2Proof.Machine.execResetEntry lowTicks s
  | .resetRelease straps => Sys2Proof.Machine.execResetRelease straps s
  | .initialisationEnd => Sys2Proof.Machine.execInitialisationEnd s
  | .frameReceivedCp run => Sys2Proof.Machine.execFrameReceivedCp run s
  | .frameReceivedSp run => Sys2Proof.Machine.execFrameReceivedSp run s
  | .frameSentCp => Sys2Proof.Machine.execFrameSentCp s
  | .frameSentSp => Sys2Proof.Machine.execFrameSentSp s
  | .openHoldRelease => Sys2Proof.Machine.execOpenHoldRelease s
  | .closeDeadlineExpiry => Sys2Proof.Machine.execCloseDeadlineExpiry s
  | .periodMaximumExpiry => Sys2Proof.Machine.execPeriodMaximumExpiry s
  | .captureEdge => Sys2Proof.Machine.execCaptureEdge s
  | .readEntry => Sys2Proof.Machine.execReadEntry s
  | .writeShadow => Sys2Proof.Machine.execWriteShadow s
  | .syncShadow => Sys2Proof.Machine.execSyncShadow s
  | .commit => Sys2Proof.Machine.execCommit s
  | .abortCommit => Sys2Proof.Machine.execAbortCommit s
  | .setMode => Sys2Proof.Machine.execSetMode s
  | .ackEvent => Sys2Proof.Machine.execAckEvent s
  | .ackChannel => Sys2Proof.Machine.execAckChannel s
  | .readChannel => Sys2Proof.Machine.execReadChannel s
  | .readStatus => Sys2Proof.Machine.execReadStatus s
  | .clearCounters => Sys2Proof.Machine.execClearCounters s
  | .restart => Sys2Proof.Machine.execRestart s
  | .unknownRequest => Sys2Proof.Machine.execUnknownRequest s
  | .captureLineChange high => Sys2Proof.Machine.execCaptureLineChange high s
  | .supplyOutOfLimits => Sys2Proof.Machine.execSupplyOutOfLimits s

end Sys2Proof.Machine
end

