-- ==== Sys2Proof/Machine/Lane.lean ====
section
/-! DEFINITION. The lanes at the bit: what a transmitter sends and how a receiver delivers runs (R192). A level is one tick of
a lane, high or low; the commands FRAME_RECEIVED_CP and FRAME_RECEIVED_SP carry the runs a receiver delivers. -/

namespace Sys2Proof.Machine

/-- A byte on the lane: a start bit (low), eight data bits least significant first, a stop bit (high). -/
def sendByte (b : Byte) : List Bool :=
  [false, b.getLsbD 0, b.getLsbD 1, b.getLsbD 2, b.getLsbD 3, b.getLsbD 4, b.getLsbD 5, b.getLsbD 6, b.getLsbD 7, true]

/-- A frame on the lane: its bytes one behind the other, then the idle a transmitter leaves. -/
def sendFrame (bytes : List Byte) : List Bool := bytes.flatMap sendByte ++ List.replicate Config.idleTicks true

/-- Bits, least significant first, as a number. -/
def bitsValue : List Bool → Nat
  | [] => 0
  | b :: rest => (if b then 1 else 0) + 2 * bitsValue rest

/-- What a receiver holds: the data bits of a byte in progress; whether it waits for the lane to be high after a framing
error; the ticks the lane has stayed high since the last byte; the run so far with its mark; and whether the run began before
the initialisation period (R190). -/
structure LaneReceiver where
  bits : Option (List Bool)
  waitsHigh : Bool
  highTicks : Nat
  bytes : List Byte
  framingError : Bool
  early : Bool
deriving DecidableEq, Repr

/-- A receiver on an idle lane, no run begun. -/
def LaneReceiver.idle : LaneReceiver where
  bits := none
  waitsHigh := false
  highTicks := 0
  bytes := []
  framingError := false
  early := false

/-- Whether a receiver has seen the start of a run it has not delivered yet. -/
def LaneReceiver.inRun (r : LaneReceiver) : Bool := r.bits.isSome || !r.bytes.isEmpty

/-- A receiver when the initialisation period begins: the run whose start it has seen is an early one, which the part does not
receive (R190). A receiver follows its lane in a reset too, taking nothing: DEDUCED, unsafe (log 9). -/
def LaneReceiver.periodBegins (r : LaneReceiver) : LaneReceiver := { r with early := r.inRun }

/-- One level sampled inside a byte: a data bit, or the stop bit, which found low is a framing error. -/
def LaneReceiver.inByte (r : LaneReceiver) (bits : List Bool) (high : Bool) : LaneReceiver :=
  if bits.length < 8 then { r with bits := some (bits ++ [high]) }
  else
    { r with
      bits := none, waitsHigh := !high, highTicks := 0, bytes := r.bytes ++ [BitVec.ofNat 8 (bitsValue bits)],
      framingError := r.framingError || !high }

/-- One level sampled between bytes: a fall begins a byte; a level high for 20 ticks ends the run and delivers it. The ticks
are counted from the stop bit's end: DEDUCED, unsafe (log 17). -/
def LaneReceiver.betweenBytes (r : LaneReceiver) (high : Bool) : LaneReceiver × Option Run :=
  if high then
    if Config.idleTicks ≤ r.highTicks + 1 ∧ r.bytes ≠ [] then
      (.idle, some { bytes := r.bytes, framingError := r.framingError, early := r.early })
    else ({ r with waitsHigh := false, highTicks := r.highTicks + 1 }, none)
  else if r.waitsHigh then ({ r with highTicks := 0 }, none)
  else ({ r with bits := some [], highTicks := 0 }, none)

/-- One tick of a receiver. -/
def LaneReceiver.sample (r : LaneReceiver) (high : Bool) : LaneReceiver × Option Run :=
  match r.bits with
  | some bits => (r.inByte bits high, none)
  | none => r.betweenBytes high

/-- The runs a receiver delivers over a stretch of its lane, oldest first. -/
def LaneReceiver.receive : LaneReceiver → List Bool → List Run
  | _, [] => []
  | r, high :: rest =>
    let t := r.sample high
    match t.2 with
    | some run => run :: LaneReceiver.receive t.1 rest
    | none => LaneReceiver.receive t.1 rest

end Sys2Proof.Machine
end

