-- ==== Sys2Proof/Machine/Tick.lean ====
section
/-! DEFINITION. One tick of the part's clock, taken when no command waits: the timers advance, and the happenings that fall
due are put on the queue (sections 10.2 to 10.5). -/

namespace Sys2Proof.Machine

/-- The ticks the lane takes for a frame: the idle a transmitter leaves, and ten ticks a byte (R192). No longer idle is left:
DESIGN CHOICE, unsafe (log 13). -/
def laneTicks (bytes : List Byte) : Nat := Config.idleTicks + Config.byteTicks * bytes.length

/-- The frame CP is transmitting. -/
def FramePath.cpHead (p : FramePath) : Option (List Byte) := p.inbound.head?.map InboundFrame.bytes

/-- The frame SP is transmitting: the head outbound frame once it has been handled. -/
def FramePath.spHead (p : FramePath) : Option (List Byte) :=
  match p.outbound with
  | f :: _ => if f.handled then some f.run.bytes else none
  | [] => none

/-- The level a transmitter drives in the tick it has come to with its head frame: the idle it leaves, then the frame's bytes;
high without one (R192). -/
def laneLevel (head : Option (List Byte)) (ticks : Nat) : Bool :=
  match head with
  | some bytes => (List.replicate Config.idleTicks true ++ bytes.flatMap sendByte).getD ticks true
  | none => true

/-- The level of CP_TX: high throughout a reset (R194). -/
def State.cpTx (s : State) : Bool := if s.isAwake then laneLevel s.frames.cpHead s.frames.cpTicks else true

/-- The level of SP_TX: high throughout a reset (R194). -/
def State.spTx (s : State) : Bool := if s.isAwake then laneLevel s.frames.spHead s.frames.spTicks else true

/-- The ticks a transmitter has spent on its head frame, advanced when it has one. -/
def advanceLane (head : Option (List Byte)) (ticks : Nat) : Nat := if head.isSome then ticks + 1 else 0

/-- RESET_N sampled by a tick, at the level it has: low while it has been found low (R194). Between two commands the line keeps
its level: DESIGN CHOICE, unsafe (log 7). -/
def Pins.sampleReset (p : Pins) : Pins :=
  { p with resetLow := if p.resetLow = 0 then 0 else min (p.resetLow + 1) Config.resetLowTicks }

/-- The pins advanced by a tick, this tick's sample of CAPTURE taken before it unless a command was that sample: RESET_N is
sampled, the initialisation period runs, and the next tick's sample of CAPTURE is still to be taken (R194, R195). -/
def Pins.tick (p : Pins) : Pins :=
  { (if p.captureSampled then p else p.sampleCapture).sampleReset with
    captureSampled := false
    initialisationTicks :=
      if p.phase = .initialising then p.initialisationTicks + 1 else p.initialisationTicks }

/-- The cycle timers advanced by a tick (R84, R90). -/
def CycleTracker.tick (c : CycleTracker) : CycleTracker :=
  { c with periodTimer := advancePeriod 1 c.periodTimer, deadlineTimer := c.deadlineTimer.map fun t => if t = 0 then 0 else t - 1 }

/-- The transmitters advanced by a tick. -/
def FramePath.tick (p : FramePath) : FramePath :=
  { p with cpTicks := advanceLane p.cpHead p.cpTicks, spTicks := advanceLane p.spHead p.spTicks }

/-- The time of the oldest waiting request advanced by a tick (R196). -/
def CommandUnit.tick (c : CommandUnit) : CommandUnit :=
  { c with requestTimer := if c.isWaiting then c.requestTimer + 1 else 0 }

/-- Every timer advanced by a tick. -/
def advanceTimers (s : State) : State :=
  (((s.withPins s.pins.tick).withCycle s.cycle.tick).withFrames s.frames.tick).withCommands s.commands.tick

/-- The command that executes a request of the kind a byte names. -/
def commandFor (kind : Byte) : Instr :=
  match requestKindOf kind with
  | some .readEntry => .readEntry
  | some .writeShadow => .writeShadow
  | some .syncShadow => .syncShadow
  | some .commit => .commit
  | some .abortCommit => .abortCommit
  | some .setMode => .setMode
  | some .ackEvent => .ackEvent
  | some .ackChannel => .ackChannel
  | some .readChannel => .readChannel
  | some .readStatus => .readStatus
  | some .clearCounters => .clearCounters
  | some .restart => .restart
  | none => .unknownRequest

/-- The happenings that fall due in a state whose timers have just advanced, in the order the model takes them: DESIGN CHOICE,
unsafe (log 3). -/
def dueCommands (s : State) : List Instr :=
  (if s.pins.holdsReset then [.resetEntry Config.resetLowTicks] else []) ++
  (if s.pins.phase = .initialising ∧ Config.initialisationTicks ≤ s.pins.initialisationTicks then
    [.initialisationEnd] else []) ++
  (if s.cycle.link = .opened ∧ s.cycle.deadlineTimer = some 0 then [.closeDeadlineExpiry] else []) ++
  (if s.isSupervised = true ∧ s.cycle.periodTimer = some s.activeBank.link.periodMaximum then
    [.periodMaximumExpiry] else []) ++
  (match s.commands.next with
    | some q => if Config.requestTicks ≤ s.commands.requestTimer then [commandFor q.kind] else []
    | none => []) ++
  (match s.frames.cpHead with
    | some bytes => if laneTicks bytes ≤ s.frames.cpTicks then [.frameSentCp] else []
    | none => []) ++
  (match s.frames.spHead with
    | some bytes => if laneTicks bytes ≤ s.frames.spTicks then [.frameSentSp] else []
    | none => [])

/-- Whether the taking of a held OPEN is due at once: it is held and at most 3 end frames occupy places (R185). -/
def State.releaseDue (s : State) : Bool :=
  decide (s.pins.phase = .running) && s.holdsOpen && decide (s.frames.endCount ≤ Config.openHoldLimit)

/-- The part with no command waiting: in reset RESET_N alone is sampled; a held OPEN that may be taken is taken first, then the
edge that this tick's sample of CAPTURE qualifies, both without a tick passing; else one tick passes. -/
def idle (s : State) : State :=
  if s.isAwake then
    if s.releaseDue then s.withPending [.openHoldRelease]
    else if s.pins.edgeDue then s.withPending [.captureEdge]
    else (advanceTimers s).withPending (dueCommands (advanceTimers s))
  else s.withPins s.pins.sampleReset

end Sys2Proof.Machine
end

