-- ==== Sys2Proof/Safety.lean ====
section
/-! DEFINITION. What counts as a safe run: the laws the data sheet gives the states of the part, each to be kept by every
step, and the conditions under which a command has its own effect. -/

namespace Sys2Proof.Machine

/-- A property of states that every step keeps, whatever command stands at the front of the queue. -/
def KeptByStep (law : State → Prop) : Prop := ∀ s t : State, law s → step s = .next t → law t

/-! ## Laws -/

/-- The laws of the lines (R49, R70). In reset the lines are negated whatever the blocks hold (R194). -/
def State.linesObeyLaws (s : State) : Prop :=
  (∀ k : Fin 4, s.lines.triggers.getLsbD k.val = true ↔
    s.isAwake = true ∧ s.config.mode = .monitor ∧
      ∃ i : Fin 64, (s.entryRecord i).used = true ∧ (s.entryRecord i).mask.getLsbD k.val = true ∧
        ((s.entry i).latch = .active ∨ (s.entry i).latch = .set ∨ (s.entry i).latch = .deferred)) ∧
  (s.lines.fault = true ↔
    s.isAwake = true ∧ s.config.mode = .monitor ∧
      ((∃ i : Fin 32, ∃ cause, (s.slot i).health = .faulted cause) ∨ s.cycle.link = .stalled))

/-- The tags of the pending requests of a kind, in the order of acceptance. -/
def CommandUnit.pendingTags (c : CommandUnit) (kind : Byte) : List Byte :=
  (c.slots.filter fun h => h.pending && decide (h.request.kind = kind)).map fun h => h.request.tag

/-- The credit law (R156), with what a PENDING holding slot stands for: the pending commit, or the pending mode change
(R155). -/
def State.obeysCreditLaw (s : State) : Prop :=
  s.commands.slots.length + s.commands.responses.length + s.reports.sentResponses.length + s.commands.freeCredits =
    Config.credits ∧
  s.commands.slots.length ≤ Config.holdingSlots ∧
  s.commands.pendingTags RequestKind.commit.code = s.config.pendingCommit.toList ∧
  s.commands.pendingTags RequestKind.setMode.code = (s.config.pendingMode.map Prod.snd).toList ∧
  ∀ h ∈ s.commands.slots, h.pending = true →
    h.request.kind = RequestKind.commit.code ∨ h.request.kind = RequestKind.setMode.code

/-- The capacities of the queues and of the Sent Set: 48 records, 4 outbound places, 8 event items and 2 response items
each sent one to four times, response data of at most 56 bytes (R106, R113, R119, R163, R184). -/
def State.withinCapacities (s : State) : Prop :=
  s.queue.records.length ≤ 48 ∧ s.frames.outbound.length ≤ 4 ∧
  s.reports.sentEvents.length ≤ 8 ∧ s.reports.sentResponses.length ≤ 2 ∧
  (∀ e ∈ s.reports.sentEvents, 1 ≤ e.sendCount ∧ e.sendCount ≤ 4) ∧
  (∀ r ∈ s.reports.sentResponses, 1 ≤ r.sendCount ∧ r.sendCount ≤ 4 ∧ r.response.data.length ≤ 56) ∧
  ∀ r ∈ s.commands.responses, r.data.length ≤ 56

/-- The bound of the inbound relay buffer (R185): 8 places, at most 6 forwarded frames, at most 7 end frames, and at most 5
while a cycle is open, whose own end has still to be placed. -/
def State.inboundBounded (s : State) : Prop :=
  s.frames.inbound.length ≤ 8 ∧ s.frames.forwardedCount ≤ 6 ∧ s.frames.endCount ≤ 7 ∧
  (s.cycle.link = .opened → s.frames.endCount ≤ 5)

/-- The active bank passes every validation check, and so does the shadow bank while a commit is pending (R139, R142); a
pending mode change is a change of the mode (R150). -/
def State.configurationLawful (s : State) : Prop :=
  validate s.activeBank s.pins.strap = none ∧
  (s.config.pendingCommit.isSome = true → validate s.shadowBank s.pins.strap = none) ∧
  ∀ mode tag, s.config.pendingMode = some (mode, tag) → mode ≠ s.config.mode

/-- What the health state of a slot says of its other state (R9, R22, R24, R35, R37): TRACKING exactly when the counts are
all zero within the pair, a hold in SETTLING alone, nothing counted and no position outside SETTLING, TRACKING and
SUSPECT. -/
def SlotState.coherent (d : SlotState) : Prop :=
  (d.health = .tracking → d.quiet = true) ∧
  (d.health = .suspect → d.quiet = false) ∧
  (d.health ≠ .settling → d.hold = 0) ∧
  (d.health = .settling → d.rate = 0 ∧ d.mismatch = 0) ∧
  (d.health.isJudged = false → d.quiet = true ∧ d.goodRun = 0 ∧ d.lastPosition = none) ∧
  (d.health.isJudged = true → d.lastPosition.isSome = true)

/-- The health law: every slot coherent; every slot UNUSED in STANDBY; in MONITOR exactly the slots not configured UNUSED
(R21, R47, R48). -/
def State.healthCoherent (s : State) : Prop :=
  (∀ i : Fin 32, (s.slot i).coherent) ∧
  (s.config.mode = .standby → ∀ i : Fin 32, (s.slot i).health = .unused) ∧
  (s.config.mode = .monitor → ∀ i : Fin 32, (s.slotRecord i).configured = true ↔ (s.slot i).health ≠ .unused)

/-- The counts of a configured slot stay below their limits, the hold within the settling hold, the good run within 254, and
a slot without a partner counts no mismatch (R22, R32, R36, R40, section 1.5). -/
def SlotState.belowLimits (r : SlotRecord) (d : SlotState) : Prop :=
  d.missing < r.missingLimit ∧ d.envelope < r.envelopeLimit ∧ d.rate < r.ratePersistence ∧
  d.mismatch < r.mismatchPersistence ∧ (r.partner = none → d.mismatch = 0) ∧ d.goodRun ≤ 254 ∧
  d.hold ≤ r.settlingHold

/-- The counts law, in MONITOR. -/
def State.countsBelowLimits (s : State) : Prop :=
  s.config.mode = .monitor → ∀ i : Fin 32, (s.slotRecord i).configured = true →
    (s.slot i).belowLimits (s.slotRecord i)

/-- What an entry's record and its slot say of its state (R51, R59, R60, R61, R63, R65): an unused entry IDLE and UNKNOWN; a
LEVEL entry ACTIVE exactly while IN; a LATCHED entry never ACTIVE, held while IN, DEFERRED only while IN; UNKNOWN while its
slot is not tracked. -/
def EntryState.coherent (r : EntryRecord) (tracked : Bool) (e : EntryState) : Prop :=
  (r.used = false → e = .cleared) ∧
  (r.mode = .level → (e.latch = .idle ∨ e.latch = .active) ∧ (e.latch = .active ↔ e.condition = .inWindow)) ∧
  (r.mode = .latched → e.latch ≠ .active ∧ (e.latch = .deferred → e.condition = .inWindow) ∧
    (e.condition = .inWindow → e.latch ≠ .idle)) ∧
  (tracked = false → e.condition = .unknown)

/-- The entry law; in STANDBY every entry is IDLE with condition UNKNOWN (R65, R74). -/
def State.entriesCoherent (s : State) : Prop :=
  (∀ i : Fin 64, (s.entry i).coherent (s.entryRecord i) (s.slot (s.entryRecord i).slot).health.inPair) ∧
  (s.config.mode = .standby → ∀ i : Fin 64, s.entry i = .cleared)

/-- What the link state says of the cycle number, the timers and the capture slot (R76, R92). -/
def State.linkCoherent (s : State) : Prop :=
  (s.cycle.link = .waiting ↔ s.cycle.currentCycle = none) ∧
  (s.cycle.link = .waiting ↔ s.cycle.periodTimer = none) ∧
  (s.cycle.link = .opened ↔ s.cycle.deadlineTimer.isSome = true) ∧
  (s.cycle.captureSlot.isSome = true → s.cycle.link ≠ .waiting)

/-- Listen-only operation (R159, R193): with strap address 0 the part stays in STANDBY with empty banks, and the Command Unit
in its state after reset. -/
def State.listensOnly (s : State) : Prop :=
  s.pins.strap = 0 →
    s.config.mode = .standby ∧ s.config.pendingCommit = none ∧ s.config.pendingMode = none ∧
    s.config.bankA = .empty ∧ s.config.bankB = .empty ∧
    s.commands.slots = [] ∧ s.commands.responses = [] ∧ s.commands.freeCredits = 4 ∧ s.commands.dropped = 0 ∧
    s.commands.malformed = 0 ∧ s.reports.sentResponses = []

/-! ## When a command has its own effect -/

/-- The commands that reset the part or end a reset (R194). -/
def isResetCommand : Instr → Bool
  | .powerOn _ _ => true
  | .resetEntry _ => true
  | .resetRelease _ => true
  | .supplyOutOfLimits => true
  | _ => false

/-- The request `q` is the oldest WAITING one, the initialisation period over: `before` are the holding slots accepted
earlier, all PENDING, `after` those accepted later (R160). -/
def State.isNext (s : State) (q : Request) (before after : List Holding) : Prop :=
  s.pins.phase = .running ∧ s.commands.slots = before ++ { request := q, pending := false } :: after ∧
  ∀ h ∈ before, h.pending = true

/-- The Command Unit when the request between `before` and `after` has completed with the responses given: its slot is EMPTY,
the responses stand behind those held. -/
def CommandUnit.answered (c : CommandUnit) (before after : List Holding) (responses : List Response) : CommandUnit :=
  { c with slots := before ++ after, responses := c.responses ++ responses, requestTimer := 0 }

/-- A response DONE to a request (R163). -/
def Request.done (q : Request) (data : List Byte) : Response :=
  { tag := q.tag, kind := q.kind, outcome := .done, reason := .none, data }

/-- A response REFUSED to a request, with no data (R163). -/
def Request.refused (q : Request) (reason : Reason) : Response :=
  { tag := q.tag, kind := q.kind, outcome := .refused, reason, data := [] }

/-- A run is received at CP with a place free, the initialisation period over and no OPEN held before it: it is handled at
once (R184, R185, R190). -/
def State.handlesAtCp (s : State) (run : Run) : Prop :=
  s.pins.phase = .running ∧ run.early = false ∧ s.frames.outbound.length < 4 ∧
  (∀ g ∈ s.frames.outbound, g.handled = true) ∧ run.bytes.length ≤ 255

/-- An intact, well-formed OPEN is received at CP and taken at once: at most 3 end frames occupy places (R78, R185). -/
def State.takesOpen (s : State) (run : Run) (o : OpenBody) : Prop :=
  s.handlesAtCp run ∧ s.frames.endCount ≤ 3 ∧
  ∃ f, intactFrame run = some f ∧ f.type = typeOpen ∧ parseOpen f.body = some o

/-- An intact, well-formed SAMPLE is received at SP in MONITOR (R3). -/
def State.takesSample (s : State) (run : Run) (f : Frame) (m : Sample) : Prop :=
  s.pins.phase = .running ∧ run.early = false ∧ s.config.mode = .monitor ∧ intactFrame run = some f ∧
  f.type = typeSample ∧ parseSample f.address f.body = some m

/-- The SAMPLE is valid for slot `i` (R4): the slot is the one its key matches, the link is OPEN in its cycle, its kind is the
slot's, and the slot has had no valid sample this cycle. -/
def State.findsValid (s : State) (m : Sample) (i : Fin 32) : Prop :=
  matchSlot s.activeBank s.pins.strap m.address m.subchannel = some i ∧ s.cycle.link = .opened ∧
  s.cycle.currentCycle = some m.cycle ∧ m.kind = (s.slotRecord i).kind ∧ (s.slot i).indication = false

/-- Two slots are a partner pair of the active bank: different, both configured, each naming the other as its partner (R38). -/
def State.arePartners (s : State) (i j : Fin 32) : Prop :=
  i ≠ j ∧ (s.slotRecord i).configured = true ∧ (s.slotRecord j).configured = true ∧
  (s.slotRecord i).partner = some j ∧ (s.slotRecord j).partner = some i

/-- The state in which the new cycle of a taken OPEN starts, its phases 1 to 5 done: acknowledgement, end of an overtaken cycle,
period check, number check, resumption (R79 to R83). -/
def State.beforeStart (s : State) (o : OpenBody) : State :=
  resume o.cycle (checkNumber s.cycle.link o.cycle (checkPeriod s.cycle.link (overtake (applyAcks o.acks s))))

/-- A command ends the open cycle by its CLOSE, or by its deadline, the timer having run out (R86, R87). -/
def State.endsCycle (s : State) (c : Instr) : Prop :=
  s.pins.phase = .running ∧ s.cycle.link = .opened ∧ ∃ current, s.cycle.currentCycle = some current ∧
    ((c = .closeDeadlineExpiry ∧ s.cycle.deadlineTimer = some 0) ∨
      ∃ run f, c = .frameReceivedSp run ∧ run.early = false ∧ intactFrame run = some f ∧ f.type = typeClose ∧
        parseClose f.body = some current)

/-- A command is an OPEN that overtakes the open cycle, with no commit and no mode change pending (R80). -/
def State.overtakenBy (s : State) (c : Instr) : Prop :=
  s.cycle.link = .opened ∧ s.config.pendingCommit = none ∧ s.config.pendingMode = none ∧
    ∃ run o, c = .frameReceivedCp run ∧ s.takesOpen run o

/-! ## Records -/

/-- A queue into which records are posted one behind the other with one cycle number (R102). -/
def EventQueue.postEach (q : EventQueue) (cycle : Word) (records : List (Fin 4 × Detail)) : EventQueue :=
  records.foldl (fun q r => q.post cycle r.1 r.2) q

/-- The record of an entry's latch transition, at the entry's priority: ENTRY_SET with the position on leaving IDLE;
ENTRY_CLEARED on returning to it, with cause CHANNEL when its slot leaves tracking, else CONDITION from ACTIVE and ACKNOWLEDGED
from DEFERRED; none for any other (R59, R60, R65, R73). -/
def EntryRecord.transition (r : EntryRecord) (i : Fin 64) (p : Word) (leaves : Bool) (left entered : Latch) :
    List (Fin 4 × Detail) :=
  match left, entered with
  | .idle, .active => [(r.priority, .entrySet i r.slot p)]
  | .idle, .set => [(r.priority, .entrySet i r.slot p)]
  | .active, .idle => [(r.priority, .entryCleared i r.slot (if leaves then .channel else .condition))]
  | .deferred, .idle => [(r.priority, .entryCleared i r.slot .acknowledged)]
  | _, _ => []

/-- The records of the latch transitions between two states, in ascending entry index (R57, R67). -/
def State.transitions (s t : State) (p : Word) (leaves : Bool) : List (Fin 4 × Detail) :=
  (List.finRange 64).flatMap fun i =>
    (s.entryRecord i).transition i p leaves (s.entry i).latch (t.entry i).latch

/-- An entry whose slot leaves tracking: UNKNOWN, an ACTIVE latch IDLE and a DEFERRED one SET (R65). -/
def EntryState.left (e : EntryState) : EntryState where
  condition := .unknown
  latch := if e.latch = .idle ∨ e.latch = .active then .idle else .set

/-- The queue after the postings of a cycle end that has left the entries as `t` holds them: its finding, the capture slot with
its own cycle number, the HEALTH records of the missing phase and of the partner phase, then the entries of the slots that left
tracking (R85, R94, R46, R67). -/
def State.queueAfterEnd (s t : State) (finding : List (Fin 4 × Detail)) : EventQueue :=
  let missed := fun i : Fin 32 => missingStep (s.slotRecord i) (s.slot i)
  let found := s.queue.postEach s.cycleNumber finding
  let captured := match s.cycle.captureSlot with
    | none => found
    | some c => found.post c.cycle 1 (.capture c.ticks c.extraEdges .opened)
  captured.postEach s.cycleNumber
    (slotRecords s.activeBank s.slot missed ++
     slotRecords s.activeBank missed (partnerStep s.activeBank missed) ++ s.transitions t 0 true)

/-- The inbound relay buffer after two end frames have been placed (R186): of the frames placed before, those `older` than some
point stand, and of the `younger` ones the end frames; the forwarded frames among the younger ones are removed and counted, as
many as two free places need and no more than there are behind the head, which is in transmission and stays. -/
def FramePath.placedEnd (before after : FramePath) (report close : InboundFrame) : Prop :=
  ∃ older younger, before.inbound = older ++ younger ∧ (before.inbound ≠ [] → older ≠ []) ∧
    after.inbound = older ++ younger.filter (fun f => !f.isForwarded) ++ [report, close] ∧
    younger.countP InboundFrame.isForwarded =
      min (before.inbound.length - 6) (before.inbound.tail.countP InboundFrame.isForwarded) ∧
    after.counters.dropsInbound = satAdd before.counters.dropsInbound (younger.countP InboundFrame.isForwarded)

/-! ## Validation (R141) -/

/-- A channel slot record of a bank passes a check, by its code; one that is not configured is judged by check 1 alone. -/
def Bank.slotPasses (b : Bank) (strap : Strap) (i : Fin 32) (code : Nat) : Prop :=
  let r := b.slots[i]
  let partner (test : SlotRecord → Prop) : Prop := ∀ j : Fin 32, r.partner = some j → test b.slots[j]
  if code = 1 then r.inRange = true
  else r.configured = true →
    match code with
    | 2 => r.node ≠ strap.toNat
    | 3 => ∀ j : Fin 32, j < i → b.slots[j].configured = true →
        ¬(b.slots[j].node = r.node ∧ b.slots[j].subchannel = r.subchannel)
    | 4 => r.kind = .scalar →
        r.offsetA = 0 ∧ r.offsetB = 0 ∧ r.gainB = 1024 ∧ r.envelopeLow = 0 ∧ r.envelopeHigh = 0
    | 5 => r.kind = .pair → r.envelopeLow < r.envelopeHigh
    | 6 => r.partner ≠ some i
    | 7 => partner fun q => q.configured = true
    | 8 => partner fun q => q.partner = some i
    | 9 => partner fun q => q.resolution = r.resolution
    | 10 => partner fun q =>
        q.mismatchTolerance = r.mismatchTolerance ∧ q.mismatchPersistence = r.mismatchPersistence
    | _ => True

/-- An event entry record of a bank passes a check, by its code; one that is not used is judged by check 1 alone. -/
def Bank.entryPasses (b : Bank) (i : Fin 64) (code : Nat) : Prop :=
  let r := b.entries[i]
  let q := b.slots[r.slot]
  if code = 1 then r.inRange = true
  else r.used = true →
    match code with
    | 11 => q.configured = true
    | 12 => 2 ^ (16 - q.resolution) ∣ r.lo.toNat ∧ 2 ^ (16 - q.resolution) ∣ r.hi.toNat
    | 13 => (r.hi - r.lo).toNat + 2 * r.hysteresis ≤ 65535
    | _ => True

/-- The link record of a bank passes a check, by its code. -/
def Bank.linkPasses (b : Bank) (code : Nat) : Prop :=
  match code with
  | 1 => b.link.inRange = true
  | 14 => b.link.periodMinimum ≠ 0 → b.link.periodMaximum ≠ 0 → b.link.periodMinimum < b.link.periodMaximum
  | 15 => b.link.periodMaximum ≠ 0 → b.link.closeDeadline.toNat < b.link.periodMaximum.toNat
  | _ => True

end Sys2Proof.Machine
end

