-- ==== Sys2Proof/Certificates/Slice0/Obligations.lean ====
section
/-! DEFINITION. The statements for the provers, from the numbered rules of the data sheet. -/

open Sys2Proof Sys2Proof.Machine

/-! ## Steps -/

/-- A step takes the command at the front of the queue and runs it with the queue's rest. -/
def Obligations.StepTakesFront : Prop :=
  ∀ (c : Instr) (rest : List Instr) (s : State), step (s.withPending (c :: rest)) = exec c (s.withPending rest)

/-- Every command ends in a next state, in every state, and leaves the queue of the commands behind it as it is. That no command
faults or is refused is the model's reading, for the data sheet gives each an effect in every state (log 19). -/
def Obligations.CommandsCompleteAndKeepQueue : Prop :=
  ∀ (c : Instr) (s : State), ∃ t, exec c s = .next t ∧ t.pending = s.pending

/-- With no command waiting, no held OPEN to release and no edge of CAPTURE due, a step out of reset is one tick: the period timer
counts up to 16777215 and the close-deadline timer down (R76, R90), the initialisation period runs, RESET_N is sampled at the
level it has, the tick's sample of CAPTURE moves the qualifier unless a command was that sample (R194, R195), the time of the
oldest waiting request and of each frame in transmission runs, the happenings fall due exactly so (R87, R90, R187, R190, R192,
R194, R196), and no block's other state changes. In reset RESET_N alone is sampled. Out of reset CP_TX and SP_TX carry the idle
that their head frame leaves and then its bytes, and are high without one (R192). That a step on an empty queue is a tick, the
order of what falls due, and the levels between commands are the model's choice (logs 2, 3, 6 and 7); so are the head frame in
transmission as soon as it is the head, with exactly 20 ticks of idle before its bytes (log 13), and a request executed at 500
ticks at the latest (log 15). -/
def Obligations.TickAdvancesTimers : Prop :=
  ∀ s : State, s.pending = [] →
    let lowTicks := if s.pins.resetLow = 0 then 0 else min 10 (s.pins.resetLow + 1)
    let executing (kind : Byte) : Instr :=
      (([(0x01, .readEntry), (0x02, .writeShadow), (0x03, .syncShadow), (0x04, .commit), (0x05, .abortCommit),
         (0x06, .setMode), (0x08, .ackEvent), (0x09, .ackChannel), (0x0C, .readChannel), (0x0D, .readStatus),
         (0x0E, .clearCounters), (0x0F, .restart)] : List (Byte × Instr)).lookup kind).getD .unknownRequest
    let level (bytes : List Byte) (ticks : Nat) : Bool :=
      if ticks < 20 then true
      else match bytes[(ticks - 20) / 10]? with
        | none => true
        | some b =>
          let bit := (ticks - 20) % 10
          if bit = 0 then false else if bit = 9 then true else b.getLsbD (bit - 1)
    (s.isAwake = false → step s = .next { s with pins := { s.pins with resetLow := lowTicks } }) ∧
    (s.isAwake = true →
      s.cpTx = (match s.frames.inbound with
        | f :: _ => level f.bytes s.frames.cpTicks
        | [] => true) ∧
      s.spTx = (match s.frames.outbound with
        | f :: _ => if f.handled = true then level f.run.bytes s.frames.spTicks else true
        | [] => true)) ∧
    (s.isAwake = true → s.releaseDue = false → s.pins.edgeDue = false →
      ∃ t, step s = .next t ∧
        t.cycle = { s.cycle with
          periodTimer := s.cycle.periodTimer.map fun n => BitVec.ofNat 24 (min 16777215 (n.toNat + 1))
          deadlineTimer := s.cycle.deadlineTimer.map fun n => BitVec.ofNat 16 (n.toNat - 1) } ∧
        t.pins = { s.pins with
          qualifier := if s.pins.captureSampled = true then s.pins.qualifier
            else s.pins.qualifier.sample s.pins.capture
          captureSampled := false
          resetLow := lowTicks
          initialisationTicks := if s.pins.phase = .initialising then s.pins.initialisationTicks + 1
            else s.pins.initialisationTicks } ∧
        (.resetEntry 10 ∈ t.pending ↔ 10 ≤ t.pins.resetLow) ∧
        (.initialisationEnd ∈ t.pending ↔ s.pins.phase = .initialising ∧ 1000 ≤ t.pins.initialisationTicks) ∧
        (.closeDeadlineExpiry ∈ t.pending ↔ s.cycle.link = .opened ∧ t.cycle.deadlineTimer = some 0) ∧
        (.periodMaximumExpiry ∈ t.pending ↔
          (s.cycle.link = .opened ∨ s.cycle.link = .closed) ∧ s.activeBank.link.periodMaximum ≠ 0 ∧
            t.cycle.periodTimer = some s.activeBank.link.periodMaximum) ∧
        (∀ before q after, s.commands.slots = before ++ { request := q, pending := false } :: after →
          (∀ h ∈ before, h.pending = true) →
          ∀ kind, executing kind ∈ t.pending ↔ executing kind = executing q.kind ∧ 500 ≤ t.commands.requestTimer) ∧
        ((∀ h ∈ s.commands.slots, h.pending = true) → ∀ kind, executing kind ∉ t.pending) ∧
        (.frameSentCp ∈ t.pending ↔
          ∃ f rest, s.frames.inbound = f :: rest ∧ 20 + 10 * f.bytes.length ≤ t.frames.cpTicks) ∧
        (.frameSentSp ∈ t.pending ↔
          ∃ f rest, s.frames.outbound = f :: rest ∧ f.handled = true ∧ 20 + 10 * f.run.bytes.length ≤ t.frames.spTicks) ∧
        t.channels = s.channels ∧ t.matcher = s.matcher ∧ t.queue = s.queue ∧ t.reports = s.reports ∧
        t.config = s.config ∧ t.lines = s.lines ∧
        t.commands = { s.commands with
          requestTimer := if ∃ h ∈ s.commands.slots, h.pending = false then s.commands.requestTimer + 1 else 0 } ∧
        t.frames = { s.frames with
          cpTicks := if s.frames.inbound = [] then 0 else s.frames.cpTicks + 1
          spTicks := match s.frames.outbound with
            | f :: _ => if f.handled = true then s.frames.spTicks + 1 else 0
            | [] => 0 })

/-! ## Reset (R19, R75, R97, R111, R129, R132, R133, R155, R189, R190, R193, R194) -/

/-- Leaving power-on reset, once CLKIN has run 1000 ticks and RESET_N is not held low, and leaving the reset of RESET_N: the
straps are sampled, the initialisation period begins, the qualifier stands HIGH, and every block holds its state after reset.
With RESET_N low on 10 consecutive ticks power-on's end leaves the part in the reset of RESET_N. RESET_N high again elsewhere
changes its count of low ticks alone. That POWER_ON acts in every phase, and what it does with RESET_N low, is the model's
choice (log 7). -/
def Obligations.LeavingReset : Prop :=
  ∀ (s : State) (straps : Strap), ∃ t,
    (∀ n, 1000 ≤ n → s.pins.resetLow < 10 → exec (.powerOn straps n) s = .next t) ∧
    (∀ n, 1000 ≤ n → 10 ≤ s.pins.resetLow →
      exec (.powerOn straps n) s = .next { t with pins := { t.pins with phase := .pinReset } }) ∧
    (∀ n, n < 1000 → exec (.powerOn straps n) s = .next s) ∧
    (s.pins.phase = .pinReset →
      exec (.resetRelease straps) s = .next { t with pins := { t.pins with resetLow := 0 } }) ∧
    (s.pins.phase ≠ .pinReset →
      exec (.resetRelease straps) s = .next { s with pins := { s.pins with resetLow := 0 } }) ∧
    t.pins = { phase := .initialising, initialisationTicks := 0, strap := straps, qualifier := .high,
               capture := s.pins.capture, captureSampled := false, resetLow := s.pins.resetLow } ∧
    t.lines = { triggers := 0, fault := false } ∧
    t.frames = { outbound := [], inbound := [], cpTicks := 0, spTicks := 0,
                 counters := { badOutbound := 0, badInbound := 0, dropsOutbound := 0, dropsInbound := 0,
                               forwardedOutbound := 0, forwardedInbound := 0 } } ∧
    t.cycle = { link := .waiting, currentCycle := none, deadlineTimer := none, periodTimer := none,
                captureSlot := none,
                counters := { opensTaken := 0, overtaken := 0, deadlineEnds := 0, lateCloses := 0, shortPeriods := 0,
                              skips := 0, stalls := 0, malformedLink := 0 } } ∧
    (∀ i, t.slot i = { health := .unused, missing := 0, envelope := 0, rate := 0, mismatch := 0, goodRun := 0,
                       hold := 0, lastPosition := none, indication := false, validTotal := 0 }) ∧
    t.channels.counters = { unmapped := 0, stale := 0, kindMismatch := 0, duplicate := 0, malformed := 0 } ∧
    (∀ i, t.entry i = { condition := .unknown, latch := .idle }) ∧
    t.queue = { records := [], nextSequence := 0, lost := 0 } ∧
    t.reports = { sentEvents := [], sentResponses := [], lastNumber := 255, abandoned := 0, droppedSinceReport := 0 } ∧
    t.commands = { slots := [], freeCredits := 4, responses := [], dropped := 0, malformed := 0, requestTimer := 0 } ∧
    t.config = { bankA := .empty, bankB := .empty, active := .bankA, generation := 0, pendingCommit := none,
                 lastCommit := none, mode := .standby, pendingMode := none } ∧
    t.pending = s.pending

/-- RESET_N low on 10 consecutive ticks, or a supply out of its limits, puts the part in reset: both relay buffers are
emptied uncounted, both transmitters stop and drive their lanes high, the lines are negated. A shorter low level moves the count
of low ticks alone; in power-on reset a low level is counted for its end. In reset nothing but a reset command changes the
part, the level of CAPTURE apart, which is not sampled: the receivers take nothing, no request executes and no timer runs out.
That SUPPLY_OUT_OF_LIMITS acts in every phase and what RESET_ENTRY carries are the model's choice (log 7), that the blocks keep
their contents until the reset ends its reading (log 8). -/
def Obligations.EnteringReset : Prop :=
  ∀ (s : State) (n : Nat),
    let emptied : State :=
      { s with frames := { s.frames with outbound := [], inbound := [], cpTicks := 0, spTicks := 0 },
               lines := { triggers := 0, fault := false } }
    (s.isAwake = true →
      (10 ≤ n → exec (.resetEntry n) s =
        .next { emptied with pins := { s.pins with phase := .pinReset, resetLow := 10 } }) ∧
      (n < 10 → exec (.resetEntry n) s = .next { s with pins := { s.pins with resetLow := n } })) ∧
    (s.pins.phase = .powerOnReset →
      exec (.resetEntry n) s = .next { s with pins := { s.pins with resetLow := min n 10 } }) ∧
    (s.pins.phase = .pinReset → exec (.resetEntry n) s = .next s) ∧
    exec .supplyOutOfLimits s = .next { emptied with pins := { s.pins with phase := .powerOnReset } } ∧
    (s.pins.phase = .powerOnReset ∨ s.pins.phase = .pinReset →
      s.cpTx = true ∧ s.spTx = true ∧
      ∀ c, isResetCommand c = false →
        exec c s = .next (match c with
          | .captureLineChange high => { s with pins := { s.pins with capture := high } }
          | _ => s))

/-- In the initialisation period every run of up to 255 bytes, at either port, is judged, counted when bad, and entered in its
relay buffer unchanged as a forwarded frame, or dropped and counted when there is no room; a longer run is counted as bad and
discarded; no block is reached. A run whose start the receiver saw before the period began is not received, then or later. The end
of the period changes the phase, and stands at its 1000 ticks whenever it is sent, the model's choice (log 4); that commands carry
whole runs with their marks is another (log 9). That an over-long run is counted as bad alone, and is no relay drop when the
buffer is full, is the model's reading (log 10). -/
def Obligations.InitialisationRelaysUnchanged : Prop :=
  ∀ (s : State) (run : Run),
    (run.early = true → exec (.frameReceivedCp run) s = .next s ∧ exec (.frameReceivedSp run) s = .next s) ∧
    (s.pins.phase = .initialising →
      exec .initialisationEnd s =
        .next { s with pins := { s.pins with phase := .running, initialisationTicks := 1000 } } ∧
      (run.early = false →
        let counters := s.frames.counters
        let badOutbound := if intactFrame run = none then satInc counters.badOutbound else counters.badOutbound
        let badInbound := if intactFrame run = none then satInc counters.badInbound else counters.badInbound
        exec (.frameReceivedCp run) s = .next { s with frames :=
          if 255 < run.bytes.length then { s.frames with counters := { counters with badOutbound } }
          else if s.frames.outbound.length < 4 then { s.frames with
            outbound := s.frames.outbound ++ [{ run, handled := true }], counters := { counters with badOutbound } }
          else { s.frames with
            counters := { counters with badOutbound, dropsOutbound := satInc counters.dropsOutbound } } } ∧
        exec (.frameReceivedSp run) s = .next { s with frames :=
          if 255 < run.bytes.length then { s.frames with counters := { counters with badInbound } }
          else if s.frames.forwardedCount < 6 ∧ s.frames.inbound.length < 8 then { s.frames with
            inbound := s.frames.inbound ++ [{ bytes := run.bytes, cls := .forwarded }]
            counters := { counters with badInbound } }
          else { s.frames with
            counters := { counters with badInbound, dropsInbound := satInc counters.dropsInbound } } }))

/-! ## Encodings (R78, R166, R178, R180, R192) -/

/-- The lane carries frames: what a transmitter sends, frame behind frame, an idle receiver delivers run by run, without a
framing error, and each begun since the initialisation period began. A run whose start the receiver has seen when that period
begins is delivered with that mark, and no run behind it. That a transmitter leaves exactly 20 ticks of idle is the model's
choice (log 13), that a receiver counts them from the end of the stop bit its reading (log 17), and that it follows its lane in
a reset as well (log 9). -/
def Obligations.LaneDeliversWhatIsSent : Prop :=
  (∀ frames : List (List Byte), (∀ b ∈ frames, b ≠ []) →
    LaneReceiver.idle.receive (frames.flatMap sendFrame) =
      frames.map fun b => { bytes := b, framingError := false, early := false }) ∧
  ∀ (r : LaneReceiver) (levels : List Bool) (first : Run) (behind : List Run),
    r.periodBegins.receive levels = first :: behind →
    (first.early = true ↔ r.bits.isSome = true ∨ r.bytes ≠ []) ∧ ∀ run ∈ behind, run.early = false

/-- A run is intact exactly when it has no framing error and is the bytes of a frame with a body of at most 250 bytes, its
length byte and its check computed; the frame is then that frame. -/
def Obligations.IntactRunsAreFrames : Prop :=
  ∀ (run : Run) (f : Frame), intactFrame run = some f ↔
    run.framingError = false ∧ f.body.length ≤ 250 ∧
      run.bytes = [f.type, f.address, BitVec.ofNat 8 f.body.length] ++ f.body ++
        bytes16 (frameCheck ([f.type, f.address, BitVec.ofNat 8 f.body.length] ++ f.body))

/-- Record contents of the three tables: the bytes that WRITE_SHADOW accepts are exactly the contents of the records within
their ranges, of 29, 12 and 8 bytes, and each is the content of the one record it is read as. So a record read with READ_ENTRY
and written back is unchanged. -/
def Obligations.RecordContentsReadBack : Prop :=
  (∀ bytes r, parseSlotRecord bytes = some r ↔ r.inRange = true ∧ bytes = r.content) ∧
  (∀ bytes r, parseEntryRecord bytes = some r ↔ r.inRange = true ∧ bytes = r.content) ∧
  (∀ bytes r, parseLinkRecord bytes = some r ↔ r.inRange = true ∧ bytes = r.content) ∧
  (∀ r : SlotRecord, r.content.length = 29) ∧ (∀ r : EntryRecord, r.content.length = 12) ∧
  (∀ r : LinkRecord, r.content.length = 8)

/-- The form checks. Of the Cycle Tracker: an OPEN holds a cycle number, a count of 0 to 4 and that many pairs; a CLOSE a cycle
number, flags, and one byte more exactly when SYNTHESIZED, bit 0 of the flags, is set (R78). Of the Channel Engine: a SAMPLE holds
the kind in bit 7 and the subchannel in bits 1..0 of its first byte, bits 6..2 not interpreted, then its cycle number, position
and marks, and a PAIR one alone two signed components behind them (R3, R181); its source is the frame's address. A SCALAR sample
has no components, which stand as 0 here and are read by nothing. -/
def Obligations.LinkFrameForms : Prop :=
  (∀ body o, parseOpen body = some o ↔
    o.acks.length ≤ 4 ∧
      body = bytes16 o.cycle ++ [BitVec.ofNat 8 o.acks.length] ++ o.acks.flatMap fun a => [a.1, a.2]) ∧
  (∀ body c, parseClose body = some c ↔
    (∃ flags : Byte, flags.getLsbD 0 = false ∧ body = bytes16 c ++ [flags]) ∨
    (∃ flags monitor : Byte, flags.getLsbD 0 = true ∧ body = bytes16 c ++ [flags, monitor])) ∧
  (∀ address body m, parseSample address body = some m ↔
    m.address = address ∧ ∃ first : Byte, m.subchannel.val = first.toNat % 4 ∧
      ((m.kind = .scalar ∧ first.getLsbD 7 = false ∧ m.a = 0 ∧ m.b = 0 ∧
          body = [first] ++ bytes16 m.cycle ++ bytes16 m.position ++ [m.marks]) ∨
        (m.kind = .pair ∧ first.getLsbD 7 = true ∧ ∃ a b : Word, m.a = a.toInt ∧ m.b = b.toInt ∧
          body = [first] ++ bytes16 m.cycle ++ bytes16 m.position ++ [m.marks] ++ bytes16 a ++ bytes16 b)))

/-! ## Relay (R180, R182 to R189) -/

/-- Outbound pass-through: with a place free, a bad run, and an intact frame that is neither an OPEN nor an MGMT frame addressed
to the part, takes a place unchanged, and behind a held OPEN any frame takes one unhandled; a bad one is counted. With all 4
places occupied a frame, intact or bad, is dropped and counted, and handed to no block. A run of more than 255 bytes is counted
as bad and discarded, at CP and at SP, and is no relay drop when the buffer is full, which is the model's reading (log 10).
Nothing else changes. -/
def Obligations.OutboundPassThrough : Prop :=
  ∀ (s : State) (run : Run), run.early = false →
    let counters := s.frames.counters
    let badOutbound := if intactFrame run = none then satInc counters.badOutbound else counters.badOutbound
    (s.handlesAtCp run →
      (∀ f, intactFrame run = some f → f.type ≠ typeOpen ∧
        ¬(f.type = typeMgmt ∧ s.pins.strap ≠ 0 ∧ f.address = strapByte s.pins.strap)) →
      exec (.frameReceivedCp run) s = .next { s with frames := { s.frames with
        outbound := s.frames.outbound ++ [{ run, handled := true }]
        counters := { counters with badOutbound } } }) ∧
    (s.pins.phase = .running → s.frames.outbound.length < 4 → (∃ g ∈ s.frames.outbound, g.handled = false) →
      run.bytes.length ≤ 255 →
      exec (.frameReceivedCp run) s = .next { s with frames := { s.frames with
        outbound := s.frames.outbound ++ [{ run, handled := false }]
        counters := { counters with badOutbound } } }) ∧
    (s.isAwake = true → 4 ≤ s.frames.outbound.length → run.bytes.length ≤ 255 →
      exec (.frameReceivedCp run) s = .next { s with frames := { s.frames with
        counters := { counters with badOutbound, dropsOutbound := satInc counters.dropsOutbound } } }) ∧
    (s.isAwake = true → 255 < run.bytes.length →
      exec (.frameReceivedCp run) s = .next { s with frames := { s.frames with
        counters := { counters with badOutbound := satInc counters.badOutbound } } } ∧
      exec (.frameReceivedSp run) s = .next { s with frames := { s.frames with
        counters := { counters with badInbound := satInc counters.badInbound } } })

/-- Inbound pass-through: an intact frame that is neither a CLOSE nor, in MONITOR, a SAMPLE is admitted unchanged when fewer
than 6 forwarded frames and fewer than 8 frames occupy places, and else dropped and counted; a bad run likewise, and counted as
bad; nothing else changes. -/
def Obligations.InboundPassThrough : Prop :=
  ∀ (s : State) (run : Run), s.pins.phase = .running → run.early = false → run.bytes.length ≤ 255 →
    (∀ f, intactFrame run = some f → f.type ≠ typeClose ∧ ¬(f.type = typeSample ∧ s.config.mode = .monitor)) →
    let bad := if intactFrame run = none then satInc s.frames.counters.badInbound else s.frames.counters.badInbound
    (s.frames.forwardedCount < 6 ∧ s.frames.inbound.length < 8 →
      exec (.frameReceivedSp run) s = .next { s with frames := { s.frames with
        inbound := s.frames.inbound ++ [{ bytes := run.bytes, cls := .forwarded }]
        counters := { s.frames.counters with badInbound := bad } } }) ∧
    (6 ≤ s.frames.forwardedCount ∨ 8 ≤ s.frames.inbound.length →
      exec (.frameReceivedSp run) s = .next { s with frames := { s.frames with
        counters := { s.frames.counters with
          badInbound := bad, dropsInbound := satInc s.frames.counters.dropsInbound } } })

/-- Departures: the head frame's place is freed; the frames-forwarded counter of its direction advances, wrapping, for a frame
that was received, and not for a REPORT or CLOSE the part originated; nothing else changes. -/
def Obligations.FramesDepart : Prop :=
  ∀ s : State, s.isAwake = true →
    (∀ f rest, s.frames.inbound = f :: rest →
      exec .frameSentCp s = .next { s with frames := { s.frames with
        inbound := rest, cpTicks := 0
        counters := { s.frames.counters with
          forwardedInbound := if f.cls = .report ∨ f.cls = .closeSynthesized then s.frames.counters.forwardedInbound
            else s.frames.counters.forwardedInbound + 1 } } }) ∧
    (∀ f rest, s.frames.outbound = f :: rest → f.handled = true →
      exec .frameSentSp s = .next { s with frames := { s.frames with
        outbound := rest, spTicks := 0
        counters := { s.frames.counters with forwardedOutbound := s.frames.counters.forwardedOutbound + 1 } } })

/-- The hold of an OPEN (R185): with 4 or more end frames in inbound places an intact OPEN takes its place and is held, untaken;
with at most 3 the held OPEN is handed and taken, may be transmitted, and the frames that waited behind it are handled in turn,
all of them forwarded when none is an OPEN or addressed to the part. A malformed OPEN is counted and forwarded unchanged
(R78). That the head is read among the frames not handled, and that the taking of a held OPEN is a command of its own, are the
model's reading and choice (log 12). -/
def Obligations.OpenHeldAndReleased : Prop :=
  ∀ (s : State) (run : Run) (f : Frame), s.pins.phase = .running → intactFrame run = some f → f.type = typeOpen →
    (s.handlesAtCp run → 4 ≤ s.frames.endCount →
      exec (.frameReceivedCp run) s = .next { s with frames := { s.frames with
        outbound := s.frames.outbound ++ [{ run, handled := false }] } }) ∧
    (s.handlesAtCp run → s.frames.endCount ≤ 3 → parseOpen f.body = none →
      exec (.frameReceivedCp run) s = .next { s with
        cycle := { s.cycle with
          counters := { s.cycle.counters with malformedLink := satInc s.cycle.counters.malformedLink } }
        frames := { s.frames with outbound := s.frames.outbound ++ [{ run, handled := true }] } }) ∧
    (∀ before behind, s.frames.outbound = before ++ { run, handled := false } :: behind →
      (∀ g ∈ before, g.handled = true) →
      (s.frames.endCount ≤ 3 →
        let taken := handOpen f.body s
        let handled := handleInTurn behind taken
        exec .openHoldRelease s = .next { handled.1 with frames := { handled.1.frames with
          outbound := before ++ { run, handled := true } :: handled.2 } } ∧
        ((∀ g ∈ behind, ∀ h, intactFrame g.run = some h → h.type ≠ typeOpen ∧
            ¬(h.type = typeMgmt ∧ s.pins.strap ≠ 0 ∧ h.address = strapByte s.pins.strap)) →
          handled = (taken, behind.map fun g => { g with handled := true }))) ∧
      (4 ≤ s.frames.endCount → exec .openHoldRelease s = .next s))

/-! ## The cycle (R78 to R91, R145, R151) -/

/-- Taking an OPEN, in any link state: the link is OPEN in the number the OPEN carries; the period timer starts from 0 and the
close-deadline timer from the close deadline of the bank active after any swap; every indication is clear; the OPEN takes its
place for forwarding. From a link that is not OPEN a pair that names the part and the last report number empties the Sent Set and
frees the credits of its responses, and any other list leaves both. A pending commit swaps the banks, raises the generation and
answers DONE. In MONITOR the swap restarts every slot whose identity changes, keeps the others with their counts below the new
limits, resets every entry whose identity changes and takes the others out of tracking with their slots, posting HEALTH with cause
COMMIT, then ENTRY_RESET and ENTRY_CLEARED; in STANDBY it clears the totals of the slots whose identity changes. A pending mode
change is applied behind it, posting MODE_CHANGED, setting up or clearing every slot and entry and answering DONE, or refused
EMPTY_BANK. Neither is pending afterwards. -/
def Obligations.OpenStartsCycle : Prop :=
  ∀ (s : State) (run : Run) (o : OpenBody), s.takesOpen run o →
    let e := s.beforeStart o
    let u := swapBanks (clearIndications e)
    let restarted (d : SlotState) (configured : Bool) : SlotState :=
      { d with health := if configured = true then .acquiring else .unused, missing := 0, envelope := 0, rate := 0,
               mismatch := 0, goodRun := 0, hold := 0, lastPosition := none, indication := false }
    let answered (c : CommandUnit) (kind : RequestKind) (tag : Byte) (outcome : RequestOutcome) (reason : Reason)
        (data : List Byte) : CommandUnit :=
      { c with slots := c.slots.eraseP fun h => h.pending && decide (h.request.kind = kind.code)
               responses := c.responses ++ [{ tag, kind := kind.code, outcome, reason, data }] }
    ∃ t, exec (.frameReceivedCp run) s = .next t ∧
      t.cycle.link = .opened ∧ t.cycle.currentCycle = some o.cycle ∧ t.cycle.periodTimer = some 0 ∧
      t.cycle.deadlineTimer = some t.activeBank.link.closeDeadline ∧
      t.cycle.counters.opensTaken = satInc s.cycle.counters.opensTaken ∧
      (∀ i, (t.slot i).indication = false) ∧
      t.frames.outbound = s.frames.outbound ++ [{ run, handled := true }] ∧
      t.config.bankA = s.config.bankA ∧ t.config.bankB = s.config.bankB ∧
      t.config.pendingCommit = none ∧ t.config.pendingMode = none ∧
      (s.config.pendingCommit = none → t.config.active = s.config.active ∧
        t.config.generation = s.config.generation ∧ t.config.lastCommit = s.config.lastCommit) ∧
      (∀ tag, s.config.pendingCommit = some tag → t.config.active = s.config.active.other ∧
        t.config.generation = s.config.generation + 1 ∧ t.config.lastCommit = some tag) ∧
      (s.config.pendingMode = none → t.config.mode = s.config.mode) ∧
      (∀ tag, s.config.pendingMode = some (.standby, tag) → t.config.mode = .standby) ∧
      (∀ tag, s.config.pendingMode = some (.monitor, tag) →
        t.config.mode = if ∃ i : Fin 32, (t.slotRecord i).configured = true then .monitor else s.config.mode) ∧
      t.pins = s.pins ∧ t.linesObeyLaws ∧
      -- the acknowledgement, which an end by overtaking follows
      t.reports = e.reports ∧
      (s.cycle.link ≠ .opened →
        if (o.acks.find? fun a => decide (a.1 = strapByte s.pins.strap)).map Prod.snd = some s.reports.lastNumber then
          e.reports = { s.reports with sentEvents := [], sentResponses := [] } ∧
          e.commands = { s.commands with
            freeCredits := s.commands.freeCredits + s.reports.sentResponses.length }
        else e.reports = s.reports ∧ e.commands = s.commands) ∧
      -- the swap
      (s.config.pendingCommit = none → (∀ i, u.slot i = { e.slot i with indication := false }) ∧
        (∀ j, u.entry j = e.entry j) ∧ u.queue = e.queue ∧ u.commands = e.commands) ∧
      (∀ tag, s.config.pendingCommit = some tag →
        let old := s.activeBank
        let new := s.shadowBank
        let same (i : Fin 32) : Prop := old.slots[i].configured = new.slots[i].configured ∧
          (new.slots[i].configured = true →
            old.slots[i].node = new.slots[i].node ∧ old.slots[i].subchannel = new.slots[i].subchannel ∧
            old.slots[i].kind = new.slots[i].kind ∧ old.slots[i].resolution = new.slots[i].resolution)
        let sameEntry (j : Fin 64) : Prop :=
          new.entries[j] = { old.entries[j] with priority := new.entries[j].priority, mask := new.entries[j].mask }
        u.commands = answered e.commands .commit tag .done .none
          (bytes16 (s.config.generation + 1) ++ [s.config.active.other.code]) ∧
        (s.config.mode = .standby →
          (∀ i, (same i → u.slot i = { e.slot i with indication := false }) ∧
            (¬same i → u.slot i = { e.slot i with indication := false, validTotal := 0 })) ∧
          (∀ j, u.entry j = e.entry j) ∧ u.queue = e.queue) ∧
        (s.config.mode = .monitor →
          (∀ i, let d := { e.slot i with indication := false }
            let r := new.slots[i]
            let below (limit count : Nat) : Nat := if limit ≤ count then limit - 1 else count
            let kept : SlotState := { d with
              missing := below r.missingLimit d.missing
              envelope := below r.envelopeLimit d.envelope
              rate := below r.ratePersistence d.rate
              mismatch := if r.partner = none ∨ r.partner ≠ old.slots[i].partner then 0
                else below r.mismatchPersistence d.mismatch
              hold := min d.hold r.settlingHold }
            (¬same i → u.slot i = { restarted d r.configured with validTotal := 0 }) ∧
            (same i → r.configured = false → u.slot i = d) ∧
            (same i → r.configured = true → u.slot i =
              if d.health = .suspect ∧ kept.missing = 0 ∧ kept.envelope = 0 ∧ kept.rate = 0 ∧ kept.mismatch = 0 then
                { kept with health := .tracking } else kept)) ∧
          (∀ j, let k := new.entries[j].slot
            (¬sameEntry j → u.entry j = { condition := .unknown, latch := .idle }) ∧
            (sameEntry j → u.entry j =
              if new.entries[j].used = true ∧ (e.slot k).health.inPair = true ∧ (u.slot k).health.inPair = false then
                (e.entry j).left else e.entry j)) ∧
          u.queue = e.queue.postEach e.cycleNumber
            (((List.finRange 32).flatMap fun i =>
                let left := (e.slot i).health
                let entered := (u.slot i).health
                if left ≠ entered ∧ ¬(new.slots[i].noteSuspect = false ∧ left.inPair = true ∧ entered.inPair = true)
                then [(3, .health i left.name entered.name .commit)] else []) ++
             ((List.finRange 64).flatMap fun j =>
                if new.entries[j] = { old.entries[j] with
                    priority := new.entries[j].priority, mask := new.entries[j].mask } then
                  new.entries[j].transition j 0 true (e.entry j).latch (u.entry j).latch
                else if (e.entry j).latch = .idle then [] else [(2, .entryReset j (e.entry j).latch)])))) ∧
      -- the mode change
      (s.config.pendingMode = none → (∀ i, t.slot i = u.slot i) ∧ (∀ j, t.entry j = u.entry j) ∧ t.queue = u.queue ∧
        t.commands = u.commands) ∧
      (∀ target tag, s.config.pendingMode = some (target, tag) →
        let changed := u.queue.post e.cycleNumber 2 (.modeChanged s.config.mode target)
        let done := answered u.commands .setMode tag .done .none []
        (target = .standby → (∀ i, t.slot i = restarted (u.slot i) false) ∧
          (∀ j, t.entry j = { condition := .unknown, latch := .idle }) ∧ t.queue = changed ∧ t.commands = done) ∧
        (target = .monitor → (∃ i : Fin 32, (t.slotRecord i).configured = true) →
          (∀ i, t.slot i = restarted (u.slot i) (t.slotRecord i).configured) ∧
          (∀ j, t.entry j = u.entry j) ∧ t.queue = changed ∧ t.commands = done) ∧
        (target = .monitor → (∀ i : Fin 32, (t.slotRecord i).configured = false) →
          (∀ i, t.slot i = u.slot i) ∧ (∀ j, t.entry j = u.entry j) ∧ t.queue = u.queue ∧
          t.commands = answered u.commands .setMode tag .refused .emptyBank []))

/-- The first OPEN after a reset or RESTART, with nothing pending, starts a cycle without period or number checks: no record is
posted, the acknowledgement list is applied (R122, R123, R126), and no other block changes. -/
def Obligations.OpenFromWaiting : Prop :=
  ∀ (s : State) (run : Run) (o : OpenBody), s.takesOpen run o → s.cycle.link = .waiting →
    s.config.pendingCommit = none → s.config.pendingMode = none →
    ∃ t, exec (.frameReceivedCp run) s = .next t ∧
      t.cycle = { s.cycle with
        link := .opened, currentCycle := some o.cycle, periodTimer := some 0
        deadlineTimer := some s.activeBank.link.closeDeadline
        counters := { s.cycle.counters with opensTaken := satInc s.cycle.counters.opensTaken } } ∧
      t.queue = s.queue ∧ t.config = s.config ∧ t.matcher = s.matcher ∧ t.pins = s.pins ∧
      t.channels.counters = s.channels.counters ∧ (∀ i, t.slot i = { s.slot i with indication := false }) ∧
      t.frames = { s.frames with outbound := s.frames.outbound ++ [{ run, handled := true }] } ∧
      (if (o.acks.find? fun a => decide (a.1 = strapByte s.pins.strap)).map Prod.snd = some s.reports.lastNumber then
        t.reports = { s.reports with sentEvents := [], sentResponses := [] } ∧
        t.commands = { s.commands with
          freeCredits := s.commands.freeCredits + s.reports.sentResponses.length }
      else t.reports = s.reports ∧ t.commands = s.commands)

/-- The checks of an OPEN with nothing pending. From CLOSED: CYCLE_SHORT when the period minimum is not 0 and the measured period
is below it, then CYCLE_SKIP when the number is not the current one plus one, each with its counter. From STALLED: CYCLE_RESUMED
alone. Every record bears the number of the cycle before and priority 3. From either, the acknowledgement list is applied (R79): a
pair that names the part and the last report number empties the Sent Set and frees the credits of its responses, and any other
list leaves both (R122, R123, R126). -/
def Obligations.OpenChecksPeriodAndNumber : Prop :=
  ∀ (s : State) (run : Run) (o : OpenBody) (current : Word) (measured : Ticks), s.takesOpen run o →
    s.config.pendingCommit = none → s.config.pendingMode = none →
    s.cycle.currentCycle = some current → s.cycle.periodTimer = some measured →
    let short := s.activeBank.link.periodMinimum ≠ 0 ∧ measured < s.activeBank.link.periodMinimum
    let skip := o.cycle ≠ current + 1
    ∃ t, exec (.frameReceivedCp run) s = .next t ∧
      (s.cycle.link = .closed →
        t.queue = s.queue.postEach current
          ((if short then [(3, .cycleShort measured)] else []) ++
           (if skip then [(3, .cycleSkip (current + 1) o.cycle)] else [])) ∧
        t.cycle.counters = { s.cycle.counters with
          opensTaken := satInc s.cycle.counters.opensTaken
          shortPeriods := if short then satInc s.cycle.counters.shortPeriods else s.cycle.counters.shortPeriods
          skips := if skip then satInc s.cycle.counters.skips else s.cycle.counters.skips }) ∧
      (s.cycle.link = .stalled →
        t.queue = s.queue.postEach current [(3, .cycleResumed o.cycle)] ∧
        t.cycle.counters = { s.cycle.counters with opensTaken := satInc s.cycle.counters.opensTaken }) ∧
      (s.cycle.link = .closed ∨ s.cycle.link = .stalled →
        if (o.acks.find? fun a => decide (a.1 = strapByte s.pins.strap)).map Prod.snd = some s.reports.lastNumber then
          t.reports = { s.reports with sentEvents := [], sentResponses := [] } ∧
          t.commands = { s.commands with
            freeCredits := s.commands.freeCredits + s.reports.sentResponses.length }
        else t.reports = s.reports ∧ t.commands = s.commands)

/-- An OPEN taken while a cycle is open, its list applied, ends that cycle as overtaken before the new one starts: the counter
advances, CYCLE_OVERTAKEN is posted, then the capture slot, the HEALTH records and those of the entries that left tracking; a
REPORT is built of the state this leaves and placed, and behind it the CLOSE the part synthesizes for the overtaken number. With
nothing pending the period and number checks follow. That the head of the buffer counts as in transmission is the model's choice
(log 13), the order of the records of two crossing pairs its reading (log 11). -/
def Obligations.OpenOvertakesCycle : Prop :=
  ∀ (s : State) (run : Run) (o : OpenBody) (current : Word) (measured : Ticks), s.takesOpen run o →
    s.cycle.link = .opened → s.cycle.currentCycle = some current → s.cycle.periodTimer = some measured →
    let counted := countCycle (fun c => { c with overtaken := satInc c.overtaken }) (applyAcks o.acks s)
    let settled := settleCycle .overtaken counted
    let built := buildReport settled
    let short := s.activeBank.link.periodMinimum ≠ 0 ∧ measured < s.activeBank.link.periodMinimum
    let skip := o.cycle ≠ current + 1
    ∃ t, exec (.frameReceivedCp run) s = .next t ∧
      t.cycle.counters.overtaken = satInc s.cycle.counters.overtaken ∧
      t.reports = built.1.reports ∧ t.reports.lastNumber = s.reports.lastNumber + 1 ∧
      s.frames.placedEnd t.frames { bytes := built.2, cls := .report }
        { bytes := (Frame.mk typeClose (strapByte s.pins.strap)
            (bytes16 current ++ [1, strapByte s.pins.strap])).bytes, cls := .closeSynthesized } ∧
      (s.config.pendingCommit = none → s.config.pendingMode = none →
        t.queue = built.1.queue.postEach current
          ((if short then [(3, .cycleShort measured)] else []) ++
           (if skip then [(3, .cycleSkip (current + 1) o.cycle)] else []))) ∧
      -- the state of which the REPORT is built
      settled.cycle = { s.cycle with
        link := .closed, deadlineTimer := none, captureSlot := none
        counters := { s.cycle.counters with overtaken := satInc s.cycle.counters.overtaken } } ∧
      settled.queue = s.queueAfterEnd settled [(3, .cycleOvertaken current)] ∧
      (∀ j, let r := s.entryRecord j
        settled.entry j =
          if r.used = true ∧ (s.slot r.slot).health.inPair = true ∧ (settled.slot r.slot).health.inPair = false then
            (s.entry j).left else s.entry j) ∧
      settled.linesObeyLaws ∧ settled.config = s.config ∧ settled.pins = s.pins ∧
      settled.reports = (applyAcks o.acks s).reports ∧ settled.commands = (applyAcks o.acks s).commands

/-- The end of a cycle by its CLOSE, and by its deadline once the timer has run out (R85 to R87, R94): the link is CLOSED and
keeps its number, the deadline timer is stopped, the period timer runs on, the capture slot is emptied; CLOSE_MISSED for a
deadline, the capture slot, the HEALTH records and those of the entries that left tracking are posted; a REPORT of the ended cycle
is built, repeating and abandoning the items of the Sent Set and drawing from that queue and from the responses, each abandoned
response returning its credit (R115 to R118), and placed with the received CLOSE unchanged behind it, or a synthesized one; the
deadline counter advances for a deadline alone; the banks, the mode and the outbound frames are as they were. That the head of the
buffer counts as in transmission is the model's choice (log 13), the order of the records of two crossing pairs its reading (log
11). -/
def Obligations.CycleEndsOnce : Prop :=
  ∀ (s : State) (c : Instr) (current : Word), s.endsCycle c → s.cycle.currentCycle = some current →
    let repeated := s.reports.sentEvents.filter fun e => decide (e.sendCount < 4)
    let repeatedResponses := s.reports.sentResponses.filter fun r => decide (r.sendCount < 4)
    ∃ t report, exec c s = .next t ∧
      t.cycle = { s.cycle with
        link := .closed, deadlineTimer := none, captureSlot := none
        counters := { s.cycle.counters with
          deadlineEnds := if c = .closeDeadlineExpiry then satInc s.cycle.counters.deadlineEnds
            else s.cycle.counters.deadlineEnds } } ∧
      s.frames.placedEnd t.frames { bytes := report, cls := .report }
        (match c with
          | .frameReceivedSp run => { bytes := run.bytes, cls := .closeReceived }
          | _ => { bytes := (Frame.mk typeClose (strapByte s.pins.strap)
                     (bytes16 current ++ [1, strapByte s.pins.strap])).bytes, cls := .closeSynthesized }) ∧
      report = (Frame.mk typeReport (strapByte s.pins.strap) (reportBody t.reports current
        (statusBlock { t with reports := { t.reports with
          droppedSinceReport := s.reports.droppedSinceReport } }))).bytes ∧
      (let posted := s.queueAfterEnd t (if c = .closeDeadlineExpiry then [(3, .closeMissed current)] else []);
        t.queue = { posted with records := posted.records.drop (8 - repeated.length) } ∧
        t.reports.sentEvents = repeated.map (fun e => { e with sendCount := e.sendCount + 1 }) ++
          (posted.records.take (8 - repeated.length)).map fun x => { record := x, sendCount := 1 }) ∧
      t.reports.sentResponses = repeatedResponses.map (fun r => { r with sendCount := r.sendCount + 1 }) ++
        (s.commands.responses.take (2 - repeatedResponses.length)).map (fun x => { response := x, sendCount := 1 }) ∧
      t.reports.abandoned = BitVec.ofNat 8 (min 255 (s.reports.abandoned.toNat +
        (s.reports.sentEvents.length - repeated.length) +
        (s.reports.sentResponses.length - repeatedResponses.length))) ∧
      t.commands = { s.commands with
        responses := s.commands.responses.drop (2 - repeatedResponses.length)
        freeCredits := s.commands.freeCredits + (s.reports.sentResponses.length - repeatedResponses.length) } ∧
      (∀ j, let r := s.entryRecord j
        t.entry j =
          if r.used = true ∧ (s.slot r.slot).health.inPair = true ∧ (t.slot r.slot).health.inPair = false then
            (s.entry j).left else s.entry j) ∧
      t.linesObeyLaws ∧ t.channels.counters = s.channels.counters ∧
      t.reports.lastNumber = s.reports.lastNumber + 1 ∧ t.reports.droppedSinceReport = 0 ∧
      t.frames.outbound = s.frames.outbound ∧ t.config = s.config ∧ t.pins = s.pins

/-- A late or stray CLOSE is discarded: the counter advances, CLOSE_LATE is posted with the number the CLOSE carried, and
nothing else changes, the open cycle and the inbound buffer among it (R88). A malformed CLOSE is counted (R78) and passed on
unchanged, or dropped and counted when there is no room (R183, R185). -/
def Obligations.LateCloseDiscarded : Prop :=
  ∀ (s : State) (run : Run) (f : Frame), s.pins.phase = .running → run.early = false →
    intactFrame run = some f → f.type = typeClose →
    (∀ c, parseClose f.body = some c → ¬(s.cycle.link = .opened ∧ s.cycle.currentCycle = some c) →
      exec (.frameReceivedSp run) s = .next { s with
        cycle := { s.cycle with
          counters := { s.cycle.counters with lateCloses := satInc s.cycle.counters.lateCloses } }
        queue := s.queue.post (s.cycle.currentCycle.getD 0) 3 (.closeLate c) }) ∧
    (parseClose f.body = none →
      exec (.frameReceivedSp run) s = .next { s with
        cycle := { s.cycle with
          counters := { s.cycle.counters with malformedLink := satInc s.cycle.counters.malformedLink } }
        frames := if s.frames.forwardedCount < 6 ∧ s.frames.inbound.length < 8 then
            { s.frames with inbound := s.frames.inbound ++ [{ bytes := run.bytes, cls := .forwarded }] }
          else { s.frames with counters := { s.frames.counters with
            dropsInbound := satInc s.frames.counters.dropsInbound } } })

/-- The stall of a CLOSED link whose period timer has reached a period maximum that is not 0: the link is STALLED, every slot in
SETTLING, TRACKING or SUSPECT is FAULTED(STALL) with nothing counted and no position, the others stay; the used entries of the
slots that were tracked leave tracking; CYCLE_STALL is posted, then a HEALTH record for each slot faulted, then an ENTRY_CLEARED
for each entry cleared; FAULT_N is asserted exactly in MONITOR; no REPORT is built. -/
def Obligations.StallFaultsSlots : Prop :=
  ∀ s : State, s.pins.phase = .running → s.cycle.link = .closed → s.activeBank.link.periodMaximum ≠ 0 →
    s.cycle.periodTimer = some s.activeBank.link.periodMaximum → s.cycle.deadlineTimer = none →
    let judged (i : Fin 32) : Prop :=
      (s.slot i).health = .settling ∨ (s.slot i).health = .tracking ∨ (s.slot i).health = .suspect
    ∃ t, exec .periodMaximumExpiry s = .next t ∧
      t.cycle = { s.cycle with
        link := .stalled
        counters := { s.cycle.counters with stalls := satInc s.cycle.counters.stalls } } ∧
      (∀ i, t.slot i =
        if judged i then
          { s.slot i with health := .faulted .stall, missing := 0, envelope := 0, rate := 0, mismatch := 0,
                          goodRun := 0, hold := 0, lastPosition := none }
        else s.slot i) ∧
      (∀ j, t.entry j =
        if (s.entryRecord j).used = true ∧ (s.slot (s.entryRecord j).slot).health.inPair = true then (s.entry j).left
        else s.entry j) ∧
      t.queue = s.queue.postEach (s.cycle.currentCycle.getD 0)
        ([(3, .cycleStall s.activeBank.link.periodMaximum)] ++
         ((List.finRange 32).flatMap fun i =>
           if judged i then [(3, .health i (s.slot i).health.name .faulted (.fault .stall))] else []) ++
         s.transitions t 0 true) ∧
      (t.lines.fault = true ↔ s.config.mode = .monitor) ∧ t.linesObeyLaws ∧
      t.channels.counters = s.channels.counters ∧ t.frames = s.frames ∧ t.reports = s.reports ∧
      t.commands = s.commands ∧ t.config = s.config ∧ t.pins = s.pins

/-! ## The capture line (R92, R93, R195) -/

/-- A qualified edge: in an open cycle it fills the empty capture slot, or adds one, saturating, to the extra edges of a filled
one; in any other link state it posts a CAPTURE record of priority 1 at once; in the initialisation period it is discarded. The
qualifier stands HIGH, with CAPTURE found high by this tick's sample; nothing else changes. That the command is such an edge
whatever the qualifier held is the model's choice (log 6). -/
def Obligations.CaptureEdgeTaken : Prop :=
  ∀ s : State,
    let high : Pins := { s.pins with qualifier := .high, capture := true, captureSampled := true }
    (s.pins.phase = .running → s.cycle.link = .opened → ∀ current ticks,
      s.cycle.currentCycle = some current → s.cycle.periodTimer = some ticks →
      (s.cycle.captureSlot = none →
        exec .captureEdge s = .next { s with pins := high, cycle := { s.cycle with
          captureSlot := some { cycle := current, ticks, extraEdges := 0 } } }) ∧
      (∀ c, s.cycle.captureSlot = some c →
        exec .captureEdge s = .next { s with pins := high, cycle := { s.cycle with
          captureSlot := some { c with extraEdges := BitVec.ofNat 8 (min 255 (c.extraEdges.toNat + 1)) } } })) ∧
    (s.pins.phase = .running → s.cycle.link ≠ .opened →
      exec .captureEdge s = .next { s with
        pins := high
        queue := s.queue.post (s.cycle.currentCycle.getD 0) 1
          (.capture (s.cycle.periodTimer.getD 0) 0 s.cycle.link) }) ∧
    (s.pins.phase = .initialising → exec .captureEdge s = .next { s with pins := high })

/-- The capture qualifier, out of reset, takes one sample of CAPTURE a tick, by the command that finds the line at a level, or at
the level the line keeps when a tick passes without one: a low sample takes it to LOW and never makes an edge; from LOW a high
one takes it to RISING with a count of 1, and each further one raises the count; the third qualifies an edge, and takes it to
HIGH, where a high one changes nothing. A second command in a tick moves the line alone. That a command is the tick's sample, and
that the line keeps its level between commands, is the model's choice (log 6). -/
def Obligations.CaptureQualifies : Prop :=
  ∀ s : State, s.isAwake = true →
    let found (q : Qualifier) (high : Bool) : Pins := { s.pins with qualifier := q, capture := high, captureSampled := true }
    (s.pins.captureSampled = true → ∀ high,
      exec (.captureLineChange high) s = .next { s with pins := { s.pins with capture := high } }) ∧
    (s.pins.captureSampled = false →
      exec (.captureLineChange false) s = .next { s with pins := found .low false } ∧
      (s.pins.qualifier = .low → exec (.captureLineChange true) s = .next { s with pins := found (.rising 1) true }) ∧
      (s.pins.qualifier = .rising 1 →
        exec (.captureLineChange true) s = .next { s with pins := found (.rising 2) true }) ∧
      (s.pins.qualifier = .rising 2 → exec (.captureLineChange true) s = exec .captureEdge s) ∧
      (s.pins.qualifier = .high → exec (.captureLineChange true) s = .next { s with pins := found .high true }) ∧
      (s.pending = [] → s.releaseDue = false →
        (s.pins.qualifier = .rising 2 ∧ s.pins.capture = true → step s = .next { s with pending := [.captureEdge] }) ∧
        (s.pins.capture = false → ∃ t, step s = .next t ∧ t.pins.qualifier = .low) ∧
        (s.pins.capture = true → ∃ t, step s = .next t ∧
          (s.pins.qualifier = .low → t.pins.qualifier = .rising 1) ∧
          (s.pins.qualifier = .rising 1 → t.pins.qualifier = .rising 2) ∧
          (s.pins.qualifier = .high → t.pins.qualifier = .high))))

/-! ## Samples (R4 to R17, R22 to R39) -/

/-- Correction: the corrected position of a SAMPLE is the raw position plus the offset, modulo 65536, rounded down to a multiple
of 2^(16 − resolution), and without the offset when the SAMPLE arrived REWRITTEN (R10, R12). Of one that did not, component a is
a plus its offset, component b is b plus its offset, times the gain, divided by 1024 rounding toward zero, both held to
−32768..32767 (R11); of one that did, both are as they arrived. The envelope metric is the sum of the squares of the corrected
components divided by 65536, rounded down (R13); it lies in 0..32768 and is 32768 only when both are −32768. -/
def Obligations.CorrectionFormed : Prop :=
  ∀ (r : SlotRecord) (m : Sample),
    let arrivedRewritten := m.marks.getLsbD 6 = true
    let held (x : Int) : Int := if x < -32768 then -32768 else if 32767 < x then 32767 else x
    let scaled := (m.b + r.offsetB) * r.gainB
    let a := correctedA r m
    let b := correctedB r m
    (10 ≤ r.resolution → r.resolution ≤ 16 →
      let step := 2 ^ (16 - r.resolution)
      let p := (correctedPosition r m).toNat
      let raw := if arrivedRewritten then m.position.toNat
        else (m.position.toNat + r.positionOffset.toNat) % 65536
      p % step = 0 ∧ p ≤ raw ∧ raw < p + step) ∧
    a = (if arrivedRewritten then m.a else held (m.a + r.offsetA)) ∧
    b = (if arrivedRewritten then m.b else held (if 0 ≤ scaled then scaled / 1024 else -(-scaled / 1024))) ∧
    (envelopeMetric a b * 65536 ≤ a.natAbs ^ 2 + b.natAbs ^ 2 ∧
      a.natAbs ^ 2 + b.natAbs ^ 2 < (envelopeMetric a b + 1) * 65536) ∧
    (-32768 ≤ m.a → m.a ≤ 32767 → -32768 ≤ m.b → m.b ≤ 32767 →
      (-32768 ≤ a ∧ a ≤ 32767) ∧ (-32768 ≤ b ∧ b ≤ 32767) ∧ envelopeMetric a b ≤ 32768 ∧
      (envelopeMetric a b = 32768 ↔ a = -32768 ∧ b = -32768))

/-- A SAMPLE in MONITOR that is not valid: malformed, or unmapped, stale, kind mismatch or duplicate, the first test that applies;
its counter advances and no slot, entry or other block changes. A malformed and an unmapped one are forwarded unchanged; a mapped
one with MONITORED and the slot's health written into its marks and its check computed afresh; with no room in the inbound buffer
either is dropped and counted. A SAMPLE maps to the configured slot of the active bank that has its source as node and its
subchannel, the first should an unvalidated bank have several, the model's choice (log 18); a source of 0, above 31, or equal to
the strap address maps to none (R2). -/
def Obligations.SampleNotValid : Prop :=
  ∀ (s : State) (run : Run) (f : Frame), s.pins.phase = .running → run.early = false → s.config.mode = .monitor →
    intactFrame run = some f → f.type = typeSample →
    let counted (c : SampleCounters) (bytes : List Byte) : Host.Outcome State Fault Refusal :=
      .next { s with
        channels := { s.channels with counters := c }
        frames := if s.frames.forwardedCount < 6 ∧ s.frames.inbound.length < 8 then
            { s.frames with inbound := s.frames.inbound ++ [{ bytes, cls := .forwarded }] }
          else { s.frames with counters := { s.frames.counters with
            dropsInbound := satInc s.frames.counters.dropsInbound } } }
    let c := s.channels.counters
    (parseSample f.address f.body = none →
      exec (.frameReceivedSp run) s = counted { c with malformed := satInc c.malformed } run.bytes) ∧
    ∀ m, parseSample f.address f.body = some m →
      let mapped (i : Fin 32) : Prop :=
        m.address ≠ 0 ∧ m.address.toNat ≤ 31 ∧ m.address ≠ strapByte s.pins.strap ∧
        (s.slotRecord i).configured = true ∧ (s.slotRecord i).node = m.address.toNat ∧
        (s.slotRecord i).subchannel = m.subchannel
      (matchSlot s.activeBank s.pins.strap m.address m.subchannel = none ↔ ∀ i, ¬mapped i) ∧
      (∀ i, matchSlot s.activeBank s.pins.strap m.address m.subchannel = some i ↔
        mapped i ∧ ∀ j, j < i → ¬mapped j) ∧
      (matchSlot s.activeBank s.pins.strap m.address m.subchannel = none →
        exec (.frameReceivedSp run) s = counted { c with unmapped := satInc c.unmapped } run.bytes) ∧
      (∀ i, matchSlot s.activeBank s.pins.strap m.address m.subchannel = some i →
        let marks := (m.marks &&& 0x78#8) ||| 0x80#8 ||| (s.slot i).health.name.code
        let marked := (Frame.mk f.type f.address (f.body.set 5 marks)).bytes
        let isStale := s.cycle.link ≠ .opened ∨ s.cycle.currentCycle ≠ some m.cycle
        let isOther := m.kind ≠ (s.slotRecord i).kind
        (isStale → exec (.frameReceivedSp run) s = counted { c with stale := satInc c.stale } marked) ∧
        (¬isStale → isOther →
          exec (.frameReceivedSp run) s = counted { c with kindMismatch := satInc c.kindMismatch } marked) ∧
        (¬isStale → ¬isOther → (s.slot i).indication = true →
          exec (.frameReceivedSp run) s = counted { c with duplicate := satInc c.duplicate } marked))

/-- What a valid SAMPLE leaves alone, and what it does to every slot it is valid for: the total advances, wrapping, and the
indication is set; no other slot, no classification counter, and nothing of the cycle, the Sent Set, the Command Unit, the banks,
the mode or the pins changes. It is forwarded, or dropped and counted, with MONITORED and the slot's health after the judgement in
its marks, and, where the slot's REWRITE is set and the SAMPLE did not arrive REWRITTEN, with REWRITTEN set and the corrected
position in place of its own; its check is computed afresh. A slot in FAULTED with a latched cause changes nothing else (R26). -/
def Obligations.ValidSampleFrame : Prop :=
  ∀ (s : State) (run : Run) (f : Frame) (m : Sample) (i : Fin 32), s.takesSample run f m → s.findsValid m i →
    let p := correctedPosition (s.slotRecord i) m
    let rewrites := (s.slotRecord i).rewrite = true ∧ m.marks.getLsbD 6 = false
    ∃ t, exec (.frameReceivedSp run) s = .next t ∧
      (t.slot i).validTotal = (s.slot i).validTotal + 1 ∧ (t.slot i).indication = true ∧
      (∀ j, j ≠ i → t.slot j = s.slot j) ∧ t.channels.counters = s.channels.counters ∧
      t.cycle = s.cycle ∧ t.reports = s.reports ∧ t.commands = s.commands ∧ t.config = s.config ∧ t.pins = s.pins ∧
      (let marks := (m.marks &&& 0x78#8) ||| 0x80#8 ||| (t.slot i).health.name.code |||
          (if rewrites then 0x40#8 else 0#8)
        let marked := f.body.set 5 marks
        let body := if rewrites then (marked.set 3 (p.extractLsb' 8 8)).set 4 (p.extractLsb' 0 8) else marked
        t.frames = if s.frames.forwardedCount < 6 ∧ s.frames.inbound.length < 8 then
            { s.frames with
              inbound := s.frames.inbound ++
                [{ bytes := (Frame.mk f.type f.address body).bytes, cls := .forwarded }] }
          else { s.frames with counters := { s.frames.counters with
            dropsInbound := satInc s.frames.counters.dropsInbound } }) ∧
      (∀ cause, (s.slot i).health = .faulted cause → cause = .envelope ∨ cause = .rate ∨ cause = .mismatch →
        t.slot i = { s.slot i with validTotal := (s.slot i).validTotal + 1, indication := true } ∧
        t.matcher = s.matcher ∧ t.queue = s.queue)

/-- A valid SAMPLE of a slot in TRACKING or SUSPECT, of either kind. A PAIR sample is checked for its envelope: an excursion raises
the envelope count and ends the good run, or at the envelope limit faults the slot; a good sample advances the run, which at the
decay run, or past it, removes a count (R30 to R32). Unless that faulted the slot, the rate check is made when the last position is
of the cycle before: a step above the rate limit raises the rate count, which at the rate persistence faults the slot, and any
other step sets it to zero; else it is skipped (R33, R34). The missing count is zero, the position is recorded, and the slot is in
TRACKING exactly when its counts are all zero (R27, R37, R9). The HEALTH record, within the pair only with NOTE_SUSPECT, and the
records of the entries are posted in that order (R45, R46). -/
def Obligations.TrackedSampleJudged : Prop :=
  ∀ (s : State) (run : Run) (f : Frame) (m : Sample) (i : Fin 32), s.takesSample run f m →
    s.findsValid m i → (s.slot i).health = .tracking ∨ (s.slot i).health = .suspect →
    let r := s.slotRecord i
    let p := correctedPosition r m
    let metric := envelopeMetric (correctedA r m) (correctedB r m)
    let outside := metric < r.envelopeLow ∨ r.envelopeHigh < metric
    let excursion := m.kind = .pair ∧ outside
    let good := m.kind = .pair ∧ ¬outside
    let decays := r.decayRun ≤ (s.slot i).goodRun + 1
    let d : SlotState := { s.slot i with
      missing := 0, validTotal := (s.slot i).validTotal + 1, indication := true, lastPosition := some (p, m.cycle)
      envelope := if excursion then (s.slot i).envelope + 1
        else if good ∧ decays then (s.slot i).envelope - 1 else (s.slot i).envelope
      goodRun := if excursion ∨ (good ∧ decays) then 0
        else if good then (s.slot i).goodRun + 1 else (s.slot i).goodRun }
    let faulted (cause : FaultCause) : SlotState :=
      { d with health := .faulted cause, envelope := 0, rate := 0, mismatch := 0, goodRun := 0, hold := 0,
               lastPosition := none }
    let followed (rate : Nat) : SlotState :=
      { d with rate, health := if d.envelope = 0 ∧ rate = 0 ∧ d.mismatch = 0 then .tracking else .suspect }
    let overLimit := excursion ∧ (s.slot i).envelope + 1 = r.envelopeLimit
    ∃ t, exec (.frameReceivedSp run) s = .next t ∧
      (overLimit → t.slot i = faulted .envelope) ∧
      (¬overLimit → ∀ last, (s.slot i).lastPosition = some (last, m.cycle - 1) →
        let beyond := r.rateLimit < (p - last).toInt.natAbs
        (beyond → (s.slot i).rate + 1 = r.ratePersistence → t.slot i = faulted .rate) ∧
        (beyond → (s.slot i).rate + 1 ≠ r.ratePersistence → t.slot i = followed ((s.slot i).rate + 1)) ∧
        (¬beyond → t.slot i = followed 0)) ∧
      (¬overLimit → (∀ last, (s.slot i).lastPosition ≠ some (last, m.cycle - 1)) →
        t.slot i = followed (s.slot i).rate) ∧
      t.queue = s.queue.postEach m.cycle
        ((match (t.slot i).health with
          | .faulted cause => [(3, .health i (s.slot i).health.name .faulted (.fault cause))]
          | entered =>
            if entered ≠ (s.slot i).health ∧ r.noteSuspect = true then
              [(3, .health i (s.slot i).health.name entered.name .none)] else []) ++
         s.transitions t p (!(t.slot i).health.inPair))

/-- A valid SAMPLE of a slot in SETTLING, of either kind. A PAIR sample is checked for its envelope: an excursion raises the
envelope count, ends the good run and retriggers the hold, or at the envelope limit faults the slot; a good one advances the run,
which at the decay run, or past it, removes a count. Any sample that is no excursion counts the hold down; a hold of 0 takes the
slot to TRACKING or SUSPECT by its counts (R27, R30 to R32, R35). No rate check is made. The HEALTH record of a change and the
records of the entries are posted in that order (R45, R46). -/
def Obligations.SettlingSampleJudged : Prop :=
  ∀ (s : State) (run : Run) (f : Frame) (m : Sample) (i : Fin 32), s.takesSample run f m →
    s.findsValid m i → (s.slot i).health = .settling →
    let r := s.slotRecord i
    let p := correctedPosition r m
    let metric := envelopeMetric (correctedA r m) (correctedB r m)
    let outside := metric < r.envelopeLow ∨ r.envelopeHigh < metric
    let excursion := m.kind = .pair ∧ outside
    let good := m.kind = .pair ∧ ¬outside
    let decays := r.decayRun ≤ (s.slot i).goodRun + 1
    let hold := if excursion then r.settlingHold else (s.slot i).hold - 1
    let d : SlotState := { s.slot i with
      missing := 0, validTotal := (s.slot i).validTotal + 1, indication := true, lastPosition := some (p, m.cycle)
      hold
      envelope := if excursion then (s.slot i).envelope + 1
        else if good ∧ decays then (s.slot i).envelope - 1 else (s.slot i).envelope
      goodRun := if excursion ∨ (good ∧ decays) then 0
        else if good then (s.slot i).goodRun + 1 else (s.slot i).goodRun }
    let overLimit := excursion ∧ (s.slot i).envelope + 1 = r.envelopeLimit
    ∃ t, exec (.frameReceivedSp run) s = .next t ∧
      (overLimit → t.slot i =
        { d with health := .faulted .envelope, envelope := 0, rate := 0, mismatch := 0, goodRun := 0, hold := 0,
                 lastPosition := none }) ∧
      (¬overLimit → 0 < hold → t.slot i = d) ∧
      (¬overLimit → hold = 0 → t.slot i =
        { d with health := if d.envelope = 0 ∧ d.rate = 0 ∧ d.mismatch = 0 then .tracking else .suspect }) ∧
      t.queue = s.queue.postEach m.cycle
        ((match (t.slot i).health with
          | .settling => []
          | .faulted cause => [(3, .health i .settling .faulted (.fault cause))]
          | entered => [(3, .health i .settling entered.name .none)]) ++
         s.transitions t p (!(t.slot i).health.inPair))

/-- The entry of a slot by a valid SAMPLE of either kind, from ACQUIRING or from FAULTED(LOST) or FAULTED(STALL), no position
recorded: to SETTLING with the full hold, or to TRACKING when the settling hold is 0 (R24, R25). A PAIR sample is then checked for
its envelope as in any later judgement, and an excursion at an envelope limit of 1 faults the slot at once (R30 to R32). The
position is recorded. The record of the entry, with the cause removed, stands before that of any further change, and those of the
entries behind both (R45, R46). -/
def Obligations.ValidSampleEntersSettling : Prop :=
  ∀ (s : State) (run : Run) (f : Frame) (m : Sample) (i : Fin 32), s.takesSample run f m →
    s.findsValid m i →
    (s.slot i).health = .acquiring ∨ (s.slot i).health = .faulted .lost ∨ (s.slot i).health = .faulted .stall →
    (s.slot i).lastPosition = none →
    let r := s.slotRecord i
    let p := correctedPosition r m
    let metric := envelopeMetric (correctedA r m) (correctedB r m)
    let outside := metric < r.envelopeLow ∨ r.envelopeHigh < metric
    let excursion := m.kind = .pair ∧ outside
    let good := m.kind = .pair ∧ ¬outside
    let decays := r.decayRun ≤ (s.slot i).goodRun + 1
    let entered : Health := if r.settlingHold = 0 then .tracking else .settling
    let removed : RecordCause := match (s.slot i).health with | .faulted cause => .fault cause | _ => .none
    let d : SlotState := { s.slot i with
      missing := 0, validTotal := (s.slot i).validTotal + 1, indication := true, lastPosition := some (p, m.cycle)
      hold := r.settlingHold, health := entered
      envelope := if excursion then (s.slot i).envelope + 1
        else if good ∧ decays then (s.slot i).envelope - 1 else (s.slot i).envelope
      goodRun := if excursion ∨ (good ∧ decays) then 0
        else if good then (s.slot i).goodRun + 1 else (s.slot i).goodRun }
    let overLimit := excursion ∧ (s.slot i).envelope + 1 = r.envelopeLimit
    ∃ t, exec (.frameReceivedSp run) s = .next t ∧
      (overLimit → t.slot i =
        { d with health := .faulted .envelope, envelope := 0, rate := 0, mismatch := 0, goodRun := 0, hold := 0,
                 lastPosition := none }) ∧
      (¬overLimit → 0 < r.settlingHold → t.slot i = d) ∧
      (¬overLimit → r.settlingHold = 0 → t.slot i =
        { d with health := if d.envelope = 0 ∧ d.rate = 0 ∧ d.mismatch = 0 then .tracking else .suspect }) ∧
      t.queue = s.queue.postEach m.cycle
        (([(3, .health i (s.slot i).health.name entered.name removed)] : List (Fin 4 × Detail)) ++
         (match (t.slot i).health with
          | .faulted cause => [(3, .health i entered.name .faulted (.fault cause))]
          | .suspect => if r.noteSuspect = true then [(3, .health i entered.name .suspect .none)] else []
          | _ => []) ++
         s.transitions t p (!(t.slot i).health.inPair))

/-- The missing evaluation at the end of a cycle by its CLOSE, by its deadline once the timer has run out, or by an OPEN that
overtakes it with nothing pending, for a slot whose partner check is not made: without a valid sample in the cycle, in SETTLING,
TRACKING and SUSPECT the missing count rises, and at the missing limit the slot is FAULTED(LOST); short of it SETTLING restarts its
hold and TRACKING goes to SUSPECT; in the other states nothing changes. A slot with a valid sample is left as it is (R28). An
overtaking OPEN then starts a cycle, which clears the indication alone (R84). -/
def Obligations.MissingSampleAtCycleEnd : Prop :=
  ∀ (s : State) (c : Instr) (i : Fin 32), s.endsCycle c ∨ s.overtakenBy c →
    (∀ j, s.arePartners i j →
      ¬((s.slot i).health.inPair = true ∧ (s.slot j).health.inPair = true ∧
        (s.slot i).indication = true ∧ (s.slot j).indication = true)) →
    let d := s.slot i
    let r := s.slotRecord i
    let judged := d.health = .settling ∨ d.health = .tracking ∨ d.health = .suspect
    let after : SlotState :=
      if d.indication = false ∧ judged then
        if d.missing + 1 = r.missingLimit then
          { d with health := .faulted .lost, missing := 0, envelope := 0, rate := 0, mismatch := 0, goodRun := 0,
                   hold := 0, lastPosition := none }
        else { d with
          missing := d.missing + 1
          hold := if d.health = .settling then r.settlingHold else d.hold
          health := if d.health = .settling then .settling else .suspect }
      else d
    ∃ t, exec c s = .next t ∧ (s.endsCycle c → t.slot i = after) ∧
      (s.overtakenBy c → t.slot i = { after with indication := false })

/-- The partner check at the end of a cycle, by its CLOSE, by its deadline once the timer has run out, or by an OPEN that
overtakes it with nothing pending, of a partner pair (two configured slots of the active bank, each the other's partner), the
lower slot first, both in TRACKING or SUSPECT with a valid sample of the cycle: a difference above the tolerance raises both
mismatch counts, and faults both slots when either reaches the persistence; any other difference sets both to zero; each slot is
then in TRACKING exactly when its counts are all zero (R37, R38, R39). Tolerance and persistence, which validation makes equal,
are the lower slot's. An overtaking OPEN then clears the indications (R84). -/
def Obligations.PartnersCheckedAtCycleEnd : Prop :=
  ∀ (s : State) (c : Instr) (i j : Fin 32) (p q pc qc : Word), s.endsCycle c ∨ s.overtakenBy c →
    i < j → s.arePartners i j →
    (s.slot i).health = .tracking ∨ (s.slot i).health = .suspect →
    (s.slot j).health = .tracking ∨ (s.slot j).health = .suspect →
    (s.slot i).indication = true → (s.slot j).indication = true →
    (s.slot i).lastPosition = some (p, pc) → (s.slot j).lastPosition = some (q, qc) →
    let r := s.slotRecord i
    let away := r.mismatchTolerance < (p - q).toInt.natAbs
    let faults := (s.slot i).mismatch + 1 = r.mismatchPersistence ∨ (s.slot j).mismatch + 1 = r.mismatchPersistence
    let after (d : SlotState) : SlotState :=
      if away then
        if faults then
          { d with health := .faulted .mismatch, missing := 0, envelope := 0, rate := 0, mismatch := 0, goodRun := 0,
                   hold := 0, lastPosition := none }
        else { d with mismatch := d.mismatch + 1, health := .suspect }
      else { d with
        mismatch := 0, health := if d.missing = 0 ∧ d.envelope = 0 ∧ d.rate = 0 then .tracking else .suspect }
    ∃ t, exec c s = .next t ∧
      (s.endsCycle c → t.slot i = after (s.slot i) ∧ t.slot j = after (s.slot j)) ∧
      (s.overtakenBy c → t.slot i = { after (s.slot i) with indication := false } ∧
        t.slot j = { after (s.slot j) with indication := false })

/-! ## Entries (R53 to R61) -/

/-- The windows of a validated entry: the extended window is the positions within the hysteresis of the core window, taken round
from its first end, and contains the whole core window; with hysteresis 0 the two are the same. -/
def Obligations.ExtendedWindowContainsCore : Prop :=
  ∀ (r : EntryRecord) (p : Word), (r.hi - r.lo).toNat + 2 * r.hysteresis ≤ 65535 →
    (r.inCore p = true ↔ (p - r.lo).toNat ≤ (r.hi - r.lo).toNat) ∧
    (r.inExtended p = true ↔
      (p - (r.lo - BitVec.ofNat 16 r.hysteresis)).toNat ≤ (r.hi - r.lo).toNat + 2 * r.hysteresis) ∧
    (r.inCore p = true → r.inExtended p = true) ∧
    (r.hysteresis = 0 → (r.inExtended p = true ↔ r.inCore p = true))

/-- The evaluation of entries on a delivered position, by a valid SAMPLE of a slot that its judgement leaves in TRACKING or
SUSPECT: each used entry of the slot takes the condition of the tables of R54 and R55, and its latch moves only on a change to IN
or from IN to OUT, by the tables of R59, R60 and R61; every other entry stays. A judgement that takes the slot out of tracking
takes its used entries with it (R65). Behind the HEALTH records of the judgement, each latch transition posts its record, in
ascending entry index (R57, R73). -/
def Obligations.EntriesEvaluated : Prop :=
  ∀ (s : State) (run : Run) (f : Frame) (m : Sample) (i : Fin 32), s.takesSample run f m → s.findsValid m i →
    let entered := (entryStep (s.slotRecord i) (s.slot i)).health
    ∃ t, exec (.frameReceivedSp run) s = .next t ∧
      t.queue = s.queue.postEach m.cycle
        (judgeRecords (s.slotRecord i) i (s.slot i).health (t.slot i).health entered ++
         s.transitions t (correctedPosition (s.slotRecord i) m) (!(t.slot i).health.inPair)) ∧
      ((t.slot i).health.inPair = false → ∀ j, t.entry j =
        if (s.entryRecord j).used = true ∧ (s.entryRecord j).slot = i ∧ entered.inPair = true then (s.entry j).left
        else s.entry j) ∧
      ((t.slot i).health = .tracking ∨ (t.slot i).health = .suspect →
        ∀ j, let r := s.entryRecord j
          let p := correctedPosition (s.slotRecord i) m
          let before := (s.entry j).condition
          let after := (t.entry j).condition
          let old := (s.entry j).latch
          let new := (t.entry j).latch
          (r.used = false ∨ r.slot ≠ i → t.entry j = s.entry j) ∧
          (r.used = true → r.slot = i →
            (r.form = .inside → (r.inCore p = true → after = .inWindow) ∧
              (r.inCore p = false → r.inExtended p = true →
                after = if before = .inWindow then .inWindow else .outWindow) ∧
              (r.inCore p = false → r.inExtended p = false → after = .outWindow)) ∧
            (r.form = .outside → (r.inCore p = true → after = .outWindow) ∧
              (r.inCore p = false → r.inExtended p = true →
                after = if before = .inWindow then .inWindow else .outWindow) ∧
              (r.inCore p = false → r.inExtended p = false → after = .inWindow)) ∧
            (r.mode = .level → (old = .idle → before ≠ .inWindow → after = .inWindow → new = .active) ∧
              (old = .active → before = .inWindow → after = .outWindow → new = .idle)) ∧
            (r.mode = .latched → (old = .idle → before ≠ .inWindow → after = .inWindow → new = .set) ∧
              (old = .set → new = .set) ∧
              (old = .deferred → before = .inWindow → after = .outWindow → new = .idle)) ∧
            (before = after → new = old) ∧ (before = .unknown → after = .outWindow → new = old)))

/-! ## The Event Queue (R103 to R107) -/

/-- A posting takes the next sequence number whatever its outcome (R103). In a queue of fewer than 48 records it is appended and
nothing is lost (R104). In a full queue it displaces, when its priority is above the lowest held, the record of that lowest priority
posted last, and is else dropped (R105); either way one record is lost, the count saturating (R107). -/
def Obligations.PostingKeepsOrDisplaces : Prop :=
  ∀ (q : EventQueue) (cycle : Word) (priority : Fin 4) (detail : Detail),
    let record : EventRecord := { sequence := q.nextSequence, cycle, priority, detail }
    let after := q.post cycle priority detail
    after.nextSequence = q.nextSequence + 1 ∧
    (q.records.length < 48 → after.records = q.records ++ [record] ∧ after.lost = q.lost) ∧
    (48 ≤ q.records.length → after.lost = BitVec.ofNat 16 (min 65535 (q.lost.toNat + 1))) ∧
    (48 ≤ q.records.length → (∀ x ∈ q.records, priority ≤ x.priority) → after.records = q.records) ∧
    (∀ older x younger, 48 ≤ q.records.length → q.records = older ++ x :: younger → x.priority < priority →
      (∀ y ∈ q.records, x.priority ≤ y.priority) → (∀ y ∈ younger, y.priority ≠ x.priority) →
      after.records = older ++ younger ++ [record])

/-- Every command but a reset and RESTART keeps the queue in posting order: what it holds afterwards is, in order, some of what it
held and some of the records posted meanwhile, whose sequence numbers run on from the next sequence number one by one. -/
def Obligations.QueueStaysInPostingOrder : Prop :=
  ∀ (c : Instr) (s t : State), exec c s = .next t → isResetCommand c = false → c ≠ .restart →
    ∃ posted : List EventRecord, t.queue.records.Sublist (s.queue.records ++ posted) ∧
      t.queue.nextSequence = s.queue.nextSequence + BitVec.ofNat 16 posted.length ∧
      ∀ k (h : k < posted.length), posted[k].sequence = s.queue.nextSequence + BitVec.ofNat 16 k

/-! ## Reports (R115 to R120) -/

/-- A build, of a Sent Set within its capacity: the items sent four times are abandoned and counted, the others repeated in their
order with their send counts raised, then records and responses drawn, oldest first, each sent once, until the report is full or
the queue empty; what is drawn leaves its queue, and each abandoned response returns its credit; the report number rises by one
and the count of commands dropped starts again from 0. The frame holds the report number, the cycle number, the status block of
R121, the two counts, and the items of the Sent Set it leaves in the layouts of 9.2. That a response item holds no send count is
the model's choice (log 23). -/
def Obligations.BuildRepeatsThenDraws : Prop :=
  ∀ s : State, s.reports.sentEvents.length ≤ 8 → s.reports.sentResponses.length ≤ 2 →
    let t := (buildReport s).1
    let keptEvents := s.reports.sentEvents.filter fun e => decide (e.sendCount < 4)
    let keptResponses := s.reports.sentResponses.filter fun r => decide (r.sendCount < 4)
    let status : List Byte :=
      [if s.pins.strap = 0 then 3 else s.config.mode.code, s.cycle.link.code, boolByte s.lines.fault,
       boolByte s.config.pendingCommit.isSome,
       (match s.config.pendingMode with | none => 0 | some (.standby, _) => 1 | some (.monitor, _) => 2),
       s.reports.droppedSinceReport] ++
      bytes16 s.queue.lost ++ [t.reports.abandoned] ++ bytes16 s.config.generation ++ [byteOf t.queue.records.length]
    let kind (d : Detail) : Byte × List Byte := match d with
      | .entrySet entry slot position => (1, [byteOf entry.val, byteOf slot.val] ++ bytes16 position)
      | .entryCleared entry slot cause => (2, [byteOf entry.val, byteOf slot.val, cause.code])
      | .entryReset entry held => (3, [byteOf entry.val, held.code])
      | .health slot left entered cause => (4, [byteOf slot.val, left.code, entered.code, cause.code])
      | .cycleShort measured => (5, bytes24 measured)
      | .cycleSkip expected received => (6, bytes16 expected ++ bytes16 received)
      | .cycleOvertaken cycle => (7, bytes16 cycle)
      | .closeMissed cycle => (8, bytes16 cycle)
      | .closeLate cycle => (9, bytes16 cycle)
      | .cycleStall ticks => (10, bytes24 ticks)
      | .cycleResumed cycle => (11, bytes16 cycle)
      | .capture ticks extraEdges link => (12, bytes24 ticks ++ [extraEdges, link.code])
      | .modeChanged left entered => (13, [left.code, entered.code])
    let eventItem (e : SentEvent) : List Byte :=
      let detail := (kind e.record.detail).2
      bytes16 e.record.sequence ++ bytes16 e.record.cycle ++
      [(kind e.record.detail).1, byteOf (e.record.priority.val * 16 + e.sendCount)] ++
      detail ++ List.replicate (6 - detail.length) 0
    let responseItem (r : SentResponse) : List Byte :=
      [r.response.tag, r.response.kind,
       (if r.response.outcome = .refused then 0x80 else 0) + r.response.reason.code,
       byteOf r.response.data.length] ++ r.response.data
    (buildReport s).2 = (Frame.mk 0x30 (strapByte s.pins.strap)
      ([t.reports.lastNumber] ++ bytes16 (s.cycle.currentCycle.getD 0) ++ status ++
       [byteOf t.reports.sentEvents.length, byteOf t.reports.sentResponses.length] ++
       t.reports.sentEvents.flatMap eventItem ++ t.reports.sentResponses.flatMap responseItem)).bytes ∧
    ∃ newEvents newResponses,
      t.reports.sentEvents = keptEvents.map (fun e => { e with sendCount := e.sendCount + 1 }) ++
        newEvents.map (fun x => { record := x, sendCount := 1 }) ∧
      t.reports.sentResponses = keptResponses.map (fun r => { r with sendCount := r.sendCount + 1 }) ++
        newResponses.map (fun x => { response := x, sendCount := 1 }) ∧
      s.queue.records = newEvents ++ t.queue.records ∧
      s.commands.responses = newResponses ++ t.commands.responses ∧
      (t.reports.sentEvents.length = 8 ∨ t.reports.sentEvents.length < 8 ∧ t.queue.records = []) ∧
      (t.reports.sentResponses.length = 2 ∨ t.reports.sentResponses.length < 2 ∧ t.commands.responses = []) ∧
      t.reports.abandoned = BitVec.ofNat 8 (min 255 (s.reports.abandoned.toNat +
        (s.reports.sentEvents.length - keptEvents.length) +
        (s.reports.sentResponses.length - keptResponses.length))) ∧
      t.commands.freeCredits =
        s.commands.freeCredits + (s.reports.sentResponses.length - keptResponses.length) ∧
      t.reports.lastNumber = s.reports.lastNumber + 1 ∧ t.reports.droppedSinceReport = 0 ∧
      t.queue.nextSequence = s.queue.nextSequence ∧ t.queue.lost = s.queue.lost ∧
      t = { s with reports := t.reports, commands := t.commands, queue := t.queue }

/-! ## Management requests (R135 to R175) -/

/-- An MGMT frame addressed to the part, taken at CP, is never forwarded. With a body of two bytes or more it is accepted, behind
the requests held and with a credit, when a holding slot and a credit are free, and else dropped and counted twice; with a shorter
body it is malformed and counted (R157, R158, R177). -/
def Obligations.ManagementFrameTaken : Prop :=
  ∀ (s : State) (run : Run) (f : Frame), s.handlesAtCp run → intactFrame run = some f → f.type = typeMgmt →
    s.pins.strap ≠ 0 → f.address = strapByte s.pins.strap →
    ∃ t, exec (.frameReceivedCp run) s = .next t ∧ t.frames = s.frames ∧
      t = { s with commands := t.commands, reports := t.reports } ∧
      (f.body.length < 2 →
        t.commands = { s.commands with malformed := satInc s.commands.malformed } ∧ t.reports = s.reports) ∧
      (∀ tag kind arguments, f.body = tag :: kind :: arguments →
        (s.commands.slots.length < 2 ∧ 0 < s.commands.freeCredits →
          t.commands = { s.commands with
            slots := s.commands.slots ++ [{ request := { tag, kind, arguments }, pending := false }]
            freeCredits := s.commands.freeCredits - 1
            requestTimer := t.commands.requestTimer } ∧ t.reports = s.reports) ∧
        (2 ≤ s.commands.slots.length ∨ s.commands.freeCredits = 0 →
          t.commands = { s.commands with dropped := satInc s.commands.dropped } ∧
          t.reports = { s.reports with droppedSinceReport := satInc s.reports.droppedSinceReport }))

/-- A request of an unknown kind is refused UNKNOWN_REQUEST with its kind byte as received; a request of a known kind whose
argument length does not fit is refused BAD_VALUE; both before the owner is reached, so nothing but the Command Unit changes
(R162). -/
def Obligations.RefusedBeforeOwner : Prop :=
  ∀ (s : State) (q : Request) (before after : List Holding), s.isNext q before after →
    (requestKindOf q.kind = none →
      exec .unknownRequest s = .next { s with
        commands := s.commands.answered before after [q.refused .unknownRequest] }) ∧
    (∀ k, requestKindOf q.kind = some k → lengthFits k q.arguments = false →
      exec (commandFor q.kind) s = .next { s with
        commands := s.commands.answered before after [q.refused .badValue] })

/-- The read requests are answered from the state as it stands and change nothing but the Command Unit: READ_CHANNEL with the
18 bytes of the slot, READ_STATUS with the 56 bytes of the part, READ_ENTRY with the bank's name, the table, the index and the
record, an active entry's condition and latch state behind it (R138, R167, R171, R172). -/
def Obligations.ReadsAnswered : Prop :=
  ∀ (s : State) (q : Request) (before after : List Holding), s.isNext q before after →
    let answer (r : Response) : Host.Outcome State Fault Refusal :=
      .next { s with commands := s.commands.answered before after [r] }
    (q.kind = RequestKind.readStatus.code → q.arguments = [] →
      let link := s.cycle.counters
      let samples := s.channels.counters
      let frames := s.frames.counters
      exec .readStatus s = answer (q.done
        ([s.config.mode.code, s.cycle.link.code,
          BitVec.ofNat 8 (s.lines.triggers.toNat + if s.lines.fault = true then 16 else 0),
          boolByte s.config.pendingCommit.isSome,
          (match s.config.pendingMode with | none => 0 | some (.standby, _) => 1 | some (.monitor, _) => 2)] ++
         bytes16 s.config.generation ++ [byteOf s.queue.records.length] ++ bytes16 s.queue.lost ++
         [link.opensTaken, link.overtaken, link.deadlineEnds, link.lateCloses, link.shortPeriods, link.skips,
          link.stalls, link.malformedLink, samples.unmapped, samples.stale, samples.kindMismatch, samples.duplicate,
          samples.malformed, frames.badOutbound, frames.badInbound, frames.dropsOutbound,
          frames.dropsInbound].flatMap bytes16 ++
         bytes32 frames.forwardedOutbound ++ bytes32 frames.forwardedInbound ++
         bytes16 s.commands.dropped ++ bytes16 s.commands.malformed))) ∧
    (∀ index, q.kind = RequestKind.readChannel.code → q.arguments = [index] →
      (∀ i : Fin 32, index.toNat = i.val →
        let d := s.slot i
        let position := d.lastPosition.getD (0, 0)
        exec .readChannel s = answer (q.done
          ([d.health.name.code, d.health.causeCode, byteOf d.missing, byteOf d.envelope, byteOf d.rate,
            byteOf d.mismatch, byteOf d.goodRun, byteOf d.hold, boolByte d.lastPosition.isSome] ++
           bytes16 position.1 ++ bytes16 position.2 ++ bytes32 d.validTotal ++ [boolByte d.indication]))) ∧
      (32 ≤ index.toNat → exec .readChannel s = answer (q.refused .badIndex))) ∧
    (∀ selector table index, q.kind = RequestKind.readEntry.code → q.arguments = [selector, table, index] →
      (2 ≤ selector.toNat ∨ 3 ≤ table.toNat → exec .readEntry s = answer (q.refused .badValue)) ∧
      (∀ name, (selector = 0 ∧ name = s.config.active) ∨ (selector = 1 ∧ name = s.config.active.other) →
        (∀ i : Fin 32, table = 0 → index.toNat = i.val →
          exec .readEntry s =
            answer (q.done ([name.code, 0, index] ++ (s.config.bank name).slots[i].content))) ∧
        (∀ i : Fin 64, table = 1 → index.toNat = i.val →
          exec .readEntry s =
            answer (q.done ([name.code, 1, index] ++ (s.config.bank name).entries[i].content ++
              if selector = 0 then [(s.entry i).condition.code, (s.entry i).latch.code] else []))) ∧
        (table = 2 → index = 0 →
          exec .readEntry s = answer (q.done ([name.code, 2, 0] ++ (s.config.bank name).link.content))) ∧
        ((table = 0 ∧ 32 ≤ index.toNat) ∨ (table = 1 ∧ 64 ≤ index.toNat) ∨ (table = 2 ∧ index ≠ 0) →
          exec .readEntry s = answer (q.refused .badIndex))))

/-- WRITE_SHADOW with a fitting length, its tests in order: BAD_INDEX, COMMIT_PENDING, BAD_VALUE for content out of range, else
DONE with the one record of the shadow bank replaced. The active bank, the dynamic state and the lines stay (R135, R136). -/
def Obligations.WriteShadowReplacesRecord : Prop :=
  ∀ (s : State) (q : Request) (before after : List Holding) (t index : Byte) (content : List Byte) (table : Table),
    s.isNext q before after → q.kind = RequestKind.writeShadow.code → q.arguments = t :: index :: content →
    tableOf t = some table → lengthFits .writeShadow q.arguments = true →
    let answer (r : Response) : State := { s with commands := s.commands.answered before after [r] }
    (table.size ≤ index.toNat → exec .writeShadow s = .next (answer (q.refused .badIndex))) ∧
    (index.toNat < table.size → s.config.pendingCommit.isSome = true →
      exec .writeShadow s = .next (answer (q.refused .commitPending))) ∧
    (index.toNat < table.size → s.config.pendingCommit = none →
      (∀ (i : Fin 32), table = .slot → index.toNat = i.val →
        (∀ r, parseSlotRecord content = some r → exec .writeShadow s =
          .next ((answer (q.done [])).withShadowBank { s.shadowBank with slots := s.shadowBank.slots.set i r })) ∧
        (parseSlotRecord content = none → exec .writeShadow s = .next (answer (q.refused .badValue)))) ∧
      (∀ (i : Fin 64), table = .entry → index.toNat = i.val →
        (∀ r, parseEntryRecord content = some r → exec .writeShadow s =
          .next ((answer (q.done [])).withShadowBank
            { s.shadowBank with entries := s.shadowBank.entries.set i r })) ∧
        (parseEntryRecord content = none → exec .writeShadow s = .next (answer (q.refused .badValue)))) ∧
      (table = .link →
        (∀ r, parseLinkRecord content = some r → exec .writeShadow s =
          .next ((answer (q.done [])).withShadowBank { s.shadowBank with link := r })) ∧
        (parseLinkRecord content = none → exec .writeShadow s = .next (answer (q.refused .badValue)))))

/-- SYNC_SHADOW is refused COMMIT_PENDING while a commit is pending, changing no bank; else the shadow bank becomes equal to the
active bank, which stays as it is, and the response is DONE with no data; no other block changes (R137). -/
def Obligations.SyncShadowCopiesActive : Prop :=
  ∀ (s : State) (q : Request) (before after : List Holding), s.isNext q before after →
    q.kind = RequestKind.syncShadow.code → q.arguments = [] →
    (s.config.pendingCommit.isSome = true →
      exec .syncShadow s = .next { s with
        commands := s.commands.answered before after [q.refused .commitPending] }) ∧
    (s.config.pendingCommit = none →
      ∃ t, exec .syncShadow s = .next t ∧ t.config.bankA = s.activeBank ∧ t.config.bankB = s.activeBank ∧
        t = { s with
          commands := s.commands.answered before after [q.done []]
          config := { s.config with bankA := t.config.bankA, bankB := t.config.bankB } })

/-- COMMIT: refused COMMIT_PENDING while one is pending; refused INVALID_BANK with the table, index and code of the first failed
check; else pending with its tag, its holding slot PENDING and no response posted; no other block changes (R140, R155, R169).
Validation passes a bank all of whose records pass each of the 15 checks of R141, and else names the first offending record, slots
before entries before the link record, each in ascending index, with the lowest code that it fails. -/
def Obligations.CommitValidatesShadow : Prop :=
  ∀ (s : State) (q : Request) (before after : List Holding), s.isNext q before after →
    q.kind = RequestKind.commit.code → q.arguments = [] →
    (s.config.pendingCommit.isSome = true →
      exec .commit s = .next { s with
        commands := s.commands.answered before after [q.refused .commitPending] }) ∧
    (s.config.pendingCommit = none → ∀ table index code,
      validate s.shadowBank s.pins.strap = some (table, index, code) →
      exec .commit s = .next { s with
        commands := s.commands.answered before after
          [{ q.refused .invalidBank with data := [table.code, byteOf index, byteOf code] }] }) ∧
    (s.config.pendingCommit = none → validate s.shadowBank s.pins.strap = none →
      exec .commit s = .next { s with
        config := { s.config with pendingCommit := some q.tag }
        commands := { s.commands with
          slots := before ++ { request := q, pending := true } :: after, requestTimer := 0 } }) ∧
    -- what validation says
    (let b := s.shadowBank
      let failed := validate b s.pins.strap
      let slotsPass := ∀ i code, b.slotPasses s.pins.strap i code
      let entriesPass := ∀ i code, b.entryPasses i code
      (failed = none ↔ slotsPass ∧ entriesPass ∧ ∀ code, b.linkPasses code) ∧
      (∀ (i : Fin 32) code, failed = some (.slot, i.val, code) ↔
        (∀ j, j < i → ∀ c, b.slotPasses s.pins.strap j c) ∧ (∀ c, c < code → b.slotPasses s.pins.strap i c) ∧
        ¬b.slotPasses s.pins.strap i code) ∧
      (∀ (i : Fin 64) code, failed = some (.entry, i.val, code) ↔
        slotsPass ∧ (∀ j, j < i → ∀ c, b.entryPasses j c) ∧ (∀ c, c < code → b.entryPasses i c) ∧
        ¬b.entryPasses i code) ∧
      (∀ code, failed = some (.link, 0, code) ↔
        slotsPass ∧ entriesPass ∧ (∀ c, c < code → b.linkPasses c) ∧ ¬b.linkPasses code))

/-- ABORT_COMMIT: naming the pending commit, it cancels it, frees the COMMIT's holding slot and answers the COMMIT ABORTED and
then itself DONE; else naming the last completed commit, TOO_LATE; else NONE_PENDING; no other block changes (R143, R164). -/
def Obligations.AbortCommitCancels : Prop :=
  ∀ (s : State) (q : Request) (before after : List Holding) (target : Byte), s.isNext q before after →
    q.kind = RequestKind.abortCommit.code → q.arguments = [target] →
    (∀ older younger c, s.config.pendingCommit = some target → before = older ++ c :: younger →
      c.request.kind = RequestKind.commit.code →
      (∀ h ∈ older, h.request.kind ≠ RequestKind.commit.code) →
      exec .abortCommit s = .next { s with
        config := { s.config with pendingCommit := none }
        commands := s.commands.answered (older ++ younger) after
          [{ tag := target, kind := RequestKind.commit.code, outcome := .refused, reason := .aborted, data := [] },
           q.done []] }) ∧
    (s.config.pendingCommit ≠ some target → s.config.lastCommit = some target →
      exec .abortCommit s = .next { s with
        commands := s.commands.answered before after [q.refused .tooLate] }) ∧
    (s.config.pendingCommit ≠ some target → s.config.lastCommit ≠ some target →
      exec .abortCommit s = .next { s with
        commands := s.commands.answered before after [q.refused .nonePending] })

/-- SET_MODE, its tests in order: BAD_VALUE for a target that is neither mode, MODE_PENDING, DONE at once for the current mode,
else pending with its target and tag, its holding slot PENDING and no response posted; no other block changes (R150). -/
def Obligations.SetModeJudged : Prop :=
  ∀ (s : State) (q : Request) (before after : List Holding) (target : Byte), s.isNext q before after →
    q.kind = RequestKind.setMode.code → q.arguments = [target] →
    (target ≠ 1 → target ≠ 2 →
      exec .setMode s = .next { s with commands := s.commands.answered before after [q.refused .badValue] }) ∧
    (∀ mode, (target = 1 ∧ mode = Mode.standby) ∨ (target = 2 ∧ mode = Mode.monitor) →
      (s.config.pendingMode.isSome = true →
        exec .setMode s = .next { s with
          commands := s.commands.answered before after [q.refused .modePending] }) ∧
      (s.config.pendingMode = none → mode = s.config.mode →
        exec .setMode s = .next { s with commands := s.commands.answered before after [q.done []] }) ∧
      (s.config.pendingMode = none → mode ≠ s.config.mode →
        exec .setMode s = .next { s with
          config := { s.config with pendingMode := some (mode, q.tag) }
          commands := { s.commands with
            slots := before ++ { request := q, pending := true } :: after, requestTimer := 0 } }))

/-- ACK_EVENT in MONITOR on a used LATCHED entry of an index below 64: SET with condition IN is deferred; SET with any other
condition is cleared, with ENTRY_CLEARED(ACKNOWLEDGED) at the entry's priority; DEFERRED repeats its result; IDLE is refused
NOT_LATCHED. The refusals come first, in their order. Every other entry, and every other block, stays (R62, R63). -/
def Obligations.AckEventActs : Prop :=
  ∀ (s : State) (q : Request) (before after : List Holding) (index : Byte), s.isNext q before after →
    q.kind = RequestKind.ackEvent.code → q.arguments = [index] →
    let answered (r : Response) : CommandUnit := s.commands.answered before after [r]
    let refused (reason : Reason) : Prop := exec .ackEvent s = .next { s with commands := answered (q.refused reason) }
    (s.config.mode = .standby → refused .wrongMode) ∧
    (s.config.mode = .monitor → 64 ≤ index.toNat → refused .badIndex) ∧
    (s.config.mode = .monitor → ∀ i : Fin 64, index.toNat = i.val →
      ((s.entryRecord i).used = false → refused .badIndex) ∧
      ((s.entryRecord i).used = true → (s.entryRecord i).mode = .level → refused .notLatched) ∧
      ((s.entryRecord i).used = true → (s.entryRecord i).mode = .latched →
        ((s.entry i).latch = .idle → refused .notLatched) ∧
        ((s.entry i).latch = .deferred →
          exec .ackEvent s = .next { s with commands := answered (q.done [2]) }) ∧
        ((s.entry i).latch = .set → ∃ t, exec .ackEvent s = .next t ∧
          (∀ j, j ≠ i → t.entry j = s.entry j) ∧
          ((s.entry i).condition = .inWindow →
            t.entry i = { condition := .inWindow, latch := .deferred } ∧
            t = { s with matcher := t.matcher, commands := answered (q.done [2]) }) ∧
          ((s.entry i).condition ≠ .inWindow →
            t.entry i = { condition := (s.entry i).condition, latch := .idle } ∧ t.linesObeyLaws ∧
            t = { s with matcher := t.matcher, lines := t.lines, commands := answered (q.done [1]),
                         queue := s.queue.post (s.cycle.currentCycle.getD 0) (s.entryRecord i).priority
                           (.entryCleared i (s.entryRecord i).slot .acknowledged) }))))

/-- ACK_CHANNEL in MONITOR on a configured slot: FAULTED with cause ENVELOPE, RATE or MISMATCH goes to ACQUIRING, with a HEALTH
record of priority 3 that carries the cause removed; FAULTED with cause LOST or STALL is refused NOT_LATCHED; any other state
NOT_FAULTED. The refusals come first, in their order. Every other slot, and every other block but the lines, stays (R43). -/
def Obligations.AckChannelReleases : Prop :=
  ∀ (s : State) (q : Request) (before after : List Holding) (index : Byte), s.isNext q before after →
    q.kind = RequestKind.ackChannel.code → q.arguments = [index] →
    let answered (r : Response) : CommandUnit := s.commands.answered before after [r]
    let refused (reason : Reason) : Prop :=
      exec .ackChannel s = .next { s with commands := answered (q.refused reason) }
    (s.config.mode = .standby → refused .wrongMode) ∧
    (s.config.mode = .monitor → 32 ≤ index.toNat → refused .badIndex) ∧
    (s.config.mode = .monitor → ∀ i : Fin 32, index.toNat = i.val →
      ((s.slotRecord i).configured = false → refused .badIndex) ∧
      ((s.slotRecord i).configured = true →
        ((∀ cause, (s.slot i).health ≠ .faulted cause) → refused .notFaulted) ∧
        ((s.slot i).health = .faulted .lost ∨ (s.slot i).health = .faulted .stall → refused .notLatched) ∧
        (∀ cause, (s.slot i).health = .faulted cause → cause ≠ .lost → cause ≠ .stall →
          ∃ t, exec .ackChannel s = .next t ∧ t.slot i = { s.slot i with health := .acquiring } ∧
            (∀ j, j ≠ i → t.slot j = s.slot j) ∧ t.channels.counters = s.channels.counters ∧ t.linesObeyLaws ∧
            t = { s with channels := t.channels, lines := t.lines, commands := answered (q.done []),
                         queue := s.queue.post (s.cycle.currentCycle.getD 0) 3
                           (.health i .faulted .acquiring (.fault cause)) })))

/-- CLEAR_COUNTERS sets to zero the counters of R173 and nothing else, and answers DONE. -/
def Obligations.ClearCountersClears : Prop :=
  ∀ (s : State) (q : Request) (before after : List Holding), s.isNext q before after →
    q.kind = RequestKind.clearCounters.code → q.arguments = [] →
    ∃ t, exec .clearCounters s = .next t ∧
      (∀ i, t.slot i = { s.slot i with validTotal := 0 }) ∧
      t = { s with
        cycle := { s.cycle with
          counters := { opensTaken := 0, overtaken := 0, deadlineEnds := 0, lateCloses := 0, shortPeriods := 0,
                        skips := 0, stalls := 0, malformedLink := 0 } }
        channels := { slots := t.channels.slots,
                      counters := { unmapped := 0, stale := 0, kindMismatch := 0, duplicate := 0, malformed := 0 } }
        frames := { s.frames with
          counters := { badOutbound := 0, badInbound := 0, dropsOutbound := 0, dropsInbound := 0,
                        forwardedOutbound := 0, forwardedInbound := 0 } }
        commands := { s.commands.answered before after [q.done []] with dropped := 0, malformed := 0 }
        queue := { s.queue with lost := 0 }
        reports := { s.reports with abandoned := 0 } }

/-- RESTART discards every other request and every response, returns the blocks to their restart state with the banks, the active
choice, the generation, the relay buffers and the strap address kept, negates the lines, and leaves its own response DONE alone in
the Response Queue with three credits free (R20, R75, R98, R112, R130, R134, R174, R191). -/
def Obligations.RestartRestarts : Prop :=
  ∀ (s : State) (q : Request) (before after : List Holding), s.isNext q before after →
    q.kind = RequestKind.restart.code → q.arguments = [] →
    ∃ t, exec .restart s = .next t ∧
      t.config = { s.config with pendingCommit := none, lastCommit := none, mode := .standby, pendingMode := none } ∧
      (∀ i, t.slot i = { health := .unused, missing := 0, envelope := 0, rate := 0, mismatch := 0, goodRun := 0,
                         hold := 0, lastPosition := none, indication := false, validTotal := 0 }) ∧
      t.channels.counters = { unmapped := 0, stale := 0, kindMismatch := 0, duplicate := 0, malformed := 0 } ∧
      (∀ i, t.entry i = { condition := .unknown, latch := .idle }) ∧
      t.cycle = { link := .waiting, currentCycle := none, deadlineTimer := none, periodTimer := none,
                  captureSlot := none,
                  counters := { opensTaken := 0, overtaken := 0, deadlineEnds := 0, lateCloses := 0,
                                shortPeriods := 0, skips := 0, stalls := 0, malformedLink := 0 } } ∧
      t.queue = { records := [], nextSequence := 0, lost := 0 } ∧
      t.reports = { sentEvents := [], sentResponses := [], lastNumber := 255, abandoned := 0,
                    droppedSinceReport := 0 } ∧
      t.commands = { slots := [], freeCredits := 3, responses := [q.done []], dropped := 0, malformed := 0,
                     requestTimer := 0 } ∧
      t.frames = { s.frames with
        counters := { badOutbound := 0, badInbound := 0, dropsOutbound := 0, dropsInbound := 0,
                      forwardedOutbound := 0, forwardedInbound := 0 } } ∧
      t.lines = { triggers := 0, fault := false } ∧ t.pins = s.pins

/-! ## Laws that every step keeps -/

/-- The laws of the trigger lines and of FAULT_N are kept (R49, R70). That a line changes within its happening, a pin's lag left
out, is the model's choice (log 21). -/
def Obligations.LinesLawKept : Prop := KeptByStep State.linesObeyLaws

/-- The credit law is kept, and a PENDING slot stands for the pending commit or mode change (R155, R156). -/
def Obligations.CreditLawKept : Prop := KeptByStep State.obeysCreditLaw

/-- The capacities of the queues and of the Sent Set are kept (R106, R119). -/
def Obligations.CapacitiesKept : Prop := KeptByStep State.withinCapacities

/-- The bound of the inbound relay buffer is kept (R185, R186). -/
def Obligations.InboundBoundKept : Prop := KeptByStep State.inboundBounded

/-- The active bank always passes every validation check (R142), and a pending mode change always leads to the other mode (R150,
R151). -/
def Obligations.ConfigurationLawKept : Prop := KeptByStep State.configurationLawful

/-- The health law is kept (R21, R22, R37). -/
def Obligations.HealthLawKept : Prop := KeptByStep State.healthCoherent

/-- The counts stay below their limits, the banks being valid and the slots coherent (R37, R39, R40, R147). -/
def Obligations.CountsStayBelowLimits : Prop :=
  KeptByStep fun s => s.configurationLawful ∧ s.healthCoherent ∧ s.countsBelowLimits

/-- The entry law is kept, a pending mode change being a change of the mode (R65, R74). -/
def Obligations.EntryLawKept : Prop := KeptByStep fun s => s.configurationLawful ∧ s.entriesCoherent

/-- The link state, the cycle number and the timers agree (R76). -/
def Obligations.LinkLawKept : Prop := KeptByStep State.linkCoherent

/-- Listen-only operation lasts until the next reset (R159). -/
def Obligations.ListenOnlyKept : Prop := KeptByStep State.listensOnly

/-- The state after reset meets every law. -/
def Obligations.ResetMeetsTheLaws : Prop :=
  State.reset.linesObeyLaws ∧ State.reset.obeysCreditLaw ∧ State.reset.withinCapacities ∧
  State.reset.inboundBounded ∧ State.reset.configurationLawful ∧ State.reset.healthCoherent ∧
  State.reset.countsBelowLimits ∧ State.reset.entriesCoherent ∧ State.reset.linkCoherent ∧ State.reset.listensOnly

/-- Who changes what: but for a reset, the contents of a bank change by WRITE_SHADOW and SYNC_SHADOW alone, never the active
bank's and never while a commit is pending; the choice of the active bank, the generation and the strap address stay but for the
swap of a pending commit by an OPEN; the mode changes by an OPEN with a mode change pending, or to STANDBY by RESTART (R131, R133,
R139, R145, R150, R193). -/
def Obligations.BanksAndModeChangeOnlySo : Prop :=
  ∀ (c : Instr) (s t : State), exec c s = .next t → isResetCommand c = false →
    let isOpen := (∃ run, c = .frameReceivedCp run) ∨ c = .openHoldRelease
    (t.config.bankA ≠ s.config.bankA ∨ t.config.bankB ≠ s.config.bankB →
      (c = .writeShadow ∨ c = .syncShadow) ∧ s.config.pendingCommit = none ∧ t.activeBank = s.activeBank) ∧
    (t.config.active ≠ s.config.active ∨ t.config.generation ≠ s.config.generation →
      isOpen ∧ s.config.pendingCommit.isSome = true ∧ t.config.active = s.config.active.other ∧
        t.config.generation = s.config.generation + 1) ∧
    (t.config.mode ≠ s.config.mode →
      isOpen ∧ s.config.pendingMode.isSome = true ∨ c = .restart ∧ t.config.mode = .standby) ∧
    t.pins.strap = s.pins.strap
end

