-- ==== Sys2Proof/Laws/State.lean ====
section
/-! SUPPORT. What each update of State leaves in each field, and what the readers of one field make of the updates of the
others. -/

namespace Sys2Proof.Machine

section
variable (s : State) (x : FramePath)

@[simp] theorem State.withFrames_frames : (s.withFrames x).frames = x := rfl
@[simp] theorem State.withFrames_cycle : (s.withFrames x).cycle = s.cycle := rfl
@[simp] theorem State.withFrames_channels : (s.withFrames x).channels = s.channels := rfl
@[simp] theorem State.withFrames_matcher : (s.withFrames x).matcher = s.matcher := rfl
@[simp] theorem State.withFrames_queue : (s.withFrames x).queue = s.queue := rfl
@[simp] theorem State.withFrames_reports : (s.withFrames x).reports = s.reports := rfl
@[simp] theorem State.withFrames_commands : (s.withFrames x).commands = s.commands := rfl
@[simp] theorem State.withFrames_config : (s.withFrames x).config = s.config := rfl
@[simp] theorem State.withFrames_lines : (s.withFrames x).lines = s.lines := rfl
@[simp] theorem State.withFrames_pins : (s.withFrames x).pins = s.pins := rfl
@[simp] theorem State.withFrames_pending : (s.withFrames x).pending = s.pending := rfl

@[simp] theorem State.withFrames_readers :
    (s.withFrames x).activeBank = s.activeBank ∧
    (s.withFrames x).shadowBank = s.shadowBank ∧
    (∀ i : Fin 32, (s.withFrames x).slotRecord i = s.slotRecord i) ∧
    (∀ i : Fin 64, (s.withFrames x).entryRecord i = s.entryRecord i) ∧
    (∀ i : Fin 32, (s.withFrames x).slot i = s.slot i) ∧
    (∀ i : Fin 64, (s.withFrames x).entry i = s.entry i) ∧
    (s.withFrames x).cycleNumber = s.cycleNumber ∧
    (s.withFrames x).isAwake = s.isAwake :=
  ⟨rfl, rfl, fun _ => rfl, fun _ => rfl, fun _ => rfl, fun _ => rfl, rfl, rfl⟩

end

section
variable (s : State) (x : CycleTracker)

@[simp] theorem State.withCycle_frames : (s.withCycle x).frames = s.frames := rfl
@[simp] theorem State.withCycle_cycle : (s.withCycle x).cycle = x := rfl
@[simp] theorem State.withCycle_channels : (s.withCycle x).channels = s.channels := rfl
@[simp] theorem State.withCycle_matcher : (s.withCycle x).matcher = s.matcher := rfl
@[simp] theorem State.withCycle_queue : (s.withCycle x).queue = s.queue := rfl
@[simp] theorem State.withCycle_reports : (s.withCycle x).reports = s.reports := rfl
@[simp] theorem State.withCycle_commands : (s.withCycle x).commands = s.commands := rfl
@[simp] theorem State.withCycle_config : (s.withCycle x).config = s.config := rfl
@[simp] theorem State.withCycle_lines : (s.withCycle x).lines = s.lines := rfl
@[simp] theorem State.withCycle_pins : (s.withCycle x).pins = s.pins := rfl
@[simp] theorem State.withCycle_pending : (s.withCycle x).pending = s.pending := rfl

@[simp] theorem State.withCycle_readers :
    (s.withCycle x).activeBank = s.activeBank ∧
    (s.withCycle x).shadowBank = s.shadowBank ∧
    (∀ i : Fin 32, (s.withCycle x).slotRecord i = s.slotRecord i) ∧
    (∀ i : Fin 64, (s.withCycle x).entryRecord i = s.entryRecord i) ∧
    (∀ i : Fin 32, (s.withCycle x).slot i = s.slot i) ∧
    (∀ i : Fin 64, (s.withCycle x).entry i = s.entry i) ∧
    (s.withCycle x).isAwake = s.isAwake :=
  ⟨rfl, rfl, fun _ => rfl, fun _ => rfl, fun _ => rfl, fun _ => rfl, rfl⟩

end

section
variable (s : State) (x : ChannelEngine)

@[simp] theorem State.withChannels_frames : (s.withChannels x).frames = s.frames := rfl
@[simp] theorem State.withChannels_cycle : (s.withChannels x).cycle = s.cycle := rfl
@[simp] theorem State.withChannels_channels : (s.withChannels x).channels = x := rfl
@[simp] theorem State.withChannels_matcher : (s.withChannels x).matcher = s.matcher := rfl
@[simp] theorem State.withChannels_queue : (s.withChannels x).queue = s.queue := rfl
@[simp] theorem State.withChannels_reports : (s.withChannels x).reports = s.reports := rfl
@[simp] theorem State.withChannels_commands : (s.withChannels x).commands = s.commands := rfl
@[simp] theorem State.withChannels_config : (s.withChannels x).config = s.config := rfl
@[simp] theorem State.withChannels_lines : (s.withChannels x).lines = s.lines := rfl
@[simp] theorem State.withChannels_pins : (s.withChannels x).pins = s.pins := rfl
@[simp] theorem State.withChannels_pending : (s.withChannels x).pending = s.pending := rfl

@[simp] theorem State.withChannels_readers :
    (s.withChannels x).activeBank = s.activeBank ∧
    (s.withChannels x).shadowBank = s.shadowBank ∧
    (∀ i : Fin 32, (s.withChannels x).slotRecord i = s.slotRecord i) ∧
    (∀ i : Fin 64, (s.withChannels x).entryRecord i = s.entryRecord i) ∧
    (∀ i : Fin 64, (s.withChannels x).entry i = s.entry i) ∧
    (s.withChannels x).cycleNumber = s.cycleNumber ∧
    (s.withChannels x).isAwake = s.isAwake :=
  ⟨rfl, rfl, fun _ => rfl, fun _ => rfl, fun _ => rfl, rfl, rfl⟩

end

section
variable (s : State) (x : EventMatcher)

@[simp] theorem State.withMatcher_frames : (s.withMatcher x).frames = s.frames := rfl
@[simp] theorem State.withMatcher_cycle : (s.withMatcher x).cycle = s.cycle := rfl
@[simp] theorem State.withMatcher_channels : (s.withMatcher x).channels = s.channels := rfl
@[simp] theorem State.withMatcher_matcher : (s.withMatcher x).matcher = x := rfl
@[simp] theorem State.withMatcher_queue : (s.withMatcher x).queue = s.queue := rfl
@[simp] theorem State.withMatcher_reports : (s.withMatcher x).reports = s.reports := rfl
@[simp] theorem State.withMatcher_commands : (s.withMatcher x).commands = s.commands := rfl
@[simp] theorem State.withMatcher_config : (s.withMatcher x).config = s.config := rfl
@[simp] theorem State.withMatcher_lines : (s.withMatcher x).lines = s.lines := rfl
@[simp] theorem State.withMatcher_pins : (s.withMatcher x).pins = s.pins := rfl
@[simp] theorem State.withMatcher_pending : (s.withMatcher x).pending = s.pending := rfl

@[simp] theorem State.withMatcher_readers :
    (s.withMatcher x).activeBank = s.activeBank ∧
    (s.withMatcher x).shadowBank = s.shadowBank ∧
    (∀ i : Fin 32, (s.withMatcher x).slotRecord i = s.slotRecord i) ∧
    (∀ i : Fin 64, (s.withMatcher x).entryRecord i = s.entryRecord i) ∧
    (∀ i : Fin 32, (s.withMatcher x).slot i = s.slot i) ∧
    (s.withMatcher x).cycleNumber = s.cycleNumber ∧
    (s.withMatcher x).isAwake = s.isAwake :=
  ⟨rfl, rfl, fun _ => rfl, fun _ => rfl, fun _ => rfl, rfl, rfl⟩

end

section
variable (s : State) (x : EventQueue)

@[simp] theorem State.withQueue_frames : (s.withQueue x).frames = s.frames := rfl
@[simp] theorem State.withQueue_cycle : (s.withQueue x).cycle = s.cycle := rfl
@[simp] theorem State.withQueue_channels : (s.withQueue x).channels = s.channels := rfl
@[simp] theorem State.withQueue_matcher : (s.withQueue x).matcher = s.matcher := rfl
@[simp] theorem State.withQueue_queue : (s.withQueue x).queue = x := rfl
@[simp] theorem State.withQueue_reports : (s.withQueue x).reports = s.reports := rfl
@[simp] theorem State.withQueue_commands : (s.withQueue x).commands = s.commands := rfl
@[simp] theorem State.withQueue_config : (s.withQueue x).config = s.config := rfl
@[simp] theorem State.withQueue_lines : (s.withQueue x).lines = s.lines := rfl
@[simp] theorem State.withQueue_pins : (s.withQueue x).pins = s.pins := rfl
@[simp] theorem State.withQueue_pending : (s.withQueue x).pending = s.pending := rfl

@[simp] theorem State.withQueue_readers :
    (s.withQueue x).activeBank = s.activeBank ∧
    (s.withQueue x).shadowBank = s.shadowBank ∧
    (∀ i : Fin 32, (s.withQueue x).slotRecord i = s.slotRecord i) ∧
    (∀ i : Fin 64, (s.withQueue x).entryRecord i = s.entryRecord i) ∧
    (∀ i : Fin 32, (s.withQueue x).slot i = s.slot i) ∧
    (∀ i : Fin 64, (s.withQueue x).entry i = s.entry i) ∧
    (s.withQueue x).cycleNumber = s.cycleNumber ∧
    (s.withQueue x).isAwake = s.isAwake :=
  ⟨rfl, rfl, fun _ => rfl, fun _ => rfl, fun _ => rfl, fun _ => rfl, rfl, rfl⟩

end

section
variable (s : State) (x : ReportBuilder)

@[simp] theorem State.withReports_frames : (s.withReports x).frames = s.frames := rfl
@[simp] theorem State.withReports_cycle : (s.withReports x).cycle = s.cycle := rfl
@[simp] theorem State.withReports_channels : (s.withReports x).channels = s.channels := rfl
@[simp] theorem State.withReports_matcher : (s.withReports x).matcher = s.matcher := rfl
@[simp] theorem State.withReports_queue : (s.withReports x).queue = s.queue := rfl
@[simp] theorem State.withReports_reports : (s.withReports x).reports = x := rfl
@[simp] theorem State.withReports_commands : (s.withReports x).commands = s.commands := rfl
@[simp] theorem State.withReports_config : (s.withReports x).config = s.config := rfl
@[simp] theorem State.withReports_lines : (s.withReports x).lines = s.lines := rfl
@[simp] theorem State.withReports_pins : (s.withReports x).pins = s.pins := rfl
@[simp] theorem State.withReports_pending : (s.withReports x).pending = s.pending := rfl

@[simp] theorem State.withReports_readers :
    (s.withReports x).activeBank = s.activeBank ∧
    (s.withReports x).shadowBank = s.shadowBank ∧
    (∀ i : Fin 32, (s.withReports x).slotRecord i = s.slotRecord i) ∧
    (∀ i : Fin 64, (s.withReports x).entryRecord i = s.entryRecord i) ∧
    (∀ i : Fin 32, (s.withReports x).slot i = s.slot i) ∧
    (∀ i : Fin 64, (s.withReports x).entry i = s.entry i) ∧
    (s.withReports x).cycleNumber = s.cycleNumber ∧
    (s.withReports x).isAwake = s.isAwake :=
  ⟨rfl, rfl, fun _ => rfl, fun _ => rfl, fun _ => rfl, fun _ => rfl, rfl, rfl⟩

end

section
variable (s : State) (x : CommandUnit)

@[simp] theorem State.withCommands_frames : (s.withCommands x).frames = s.frames := rfl
@[simp] theorem State.withCommands_cycle : (s.withCommands x).cycle = s.cycle := rfl
@[simp] theorem State.withCommands_channels : (s.withCommands x).channels = s.channels := rfl
@[simp] theorem State.withCommands_matcher : (s.withCommands x).matcher = s.matcher := rfl
@[simp] theorem State.withCommands_queue : (s.withCommands x).queue = s.queue := rfl
@[simp] theorem State.withCommands_reports : (s.withCommands x).reports = s.reports := rfl
@[simp] theorem State.withCommands_commands : (s.withCommands x).commands = x := rfl
@[simp] theorem State.withCommands_config : (s.withCommands x).config = s.config := rfl
@[simp] theorem State.withCommands_lines : (s.withCommands x).lines = s.lines := rfl
@[simp] theorem State.withCommands_pins : (s.withCommands x).pins = s.pins := rfl
@[simp] theorem State.withCommands_pending : (s.withCommands x).pending = s.pending := rfl

@[simp] theorem State.withCommands_readers :
    (s.withCommands x).activeBank = s.activeBank ∧
    (s.withCommands x).shadowBank = s.shadowBank ∧
    (∀ i : Fin 32, (s.withCommands x).slotRecord i = s.slotRecord i) ∧
    (∀ i : Fin 64, (s.withCommands x).entryRecord i = s.entryRecord i) ∧
    (∀ i : Fin 32, (s.withCommands x).slot i = s.slot i) ∧
    (∀ i : Fin 64, (s.withCommands x).entry i = s.entry i) ∧
    (s.withCommands x).cycleNumber = s.cycleNumber ∧
    (s.withCommands x).isAwake = s.isAwake :=
  ⟨rfl, rfl, fun _ => rfl, fun _ => rfl, fun _ => rfl, fun _ => rfl, rfl, rfl⟩

end

section
variable (s : State) (x : ConfigController)

@[simp] theorem State.withConfig_frames : (s.withConfig x).frames = s.frames := rfl
@[simp] theorem State.withConfig_cycle : (s.withConfig x).cycle = s.cycle := rfl
@[simp] theorem State.withConfig_channels : (s.withConfig x).channels = s.channels := rfl
@[simp] theorem State.withConfig_matcher : (s.withConfig x).matcher = s.matcher := rfl
@[simp] theorem State.withConfig_queue : (s.withConfig x).queue = s.queue := rfl
@[simp] theorem State.withConfig_reports : (s.withConfig x).reports = s.reports := rfl
@[simp] theorem State.withConfig_commands : (s.withConfig x).commands = s.commands := rfl
@[simp] theorem State.withConfig_config : (s.withConfig x).config = x := rfl
@[simp] theorem State.withConfig_lines : (s.withConfig x).lines = s.lines := rfl
@[simp] theorem State.withConfig_pins : (s.withConfig x).pins = s.pins := rfl
@[simp] theorem State.withConfig_pending : (s.withConfig x).pending = s.pending := rfl

@[simp] theorem State.withConfig_readers :
    (∀ i : Fin 32, (s.withConfig x).slot i = s.slot i) ∧
    (∀ i : Fin 64, (s.withConfig x).entry i = s.entry i) ∧
    (s.withConfig x).cycleNumber = s.cycleNumber ∧
    (s.withConfig x).isAwake = s.isAwake :=
  ⟨fun _ => rfl, fun _ => rfl, rfl, rfl⟩

end

section
variable (s : State) (x : Lines)

@[simp] theorem State.withLines_frames : (s.withLines x).frames = s.frames := rfl
@[simp] theorem State.withLines_cycle : (s.withLines x).cycle = s.cycle := rfl
@[simp] theorem State.withLines_channels : (s.withLines x).channels = s.channels := rfl
@[simp] theorem State.withLines_matcher : (s.withLines x).matcher = s.matcher := rfl
@[simp] theorem State.withLines_queue : (s.withLines x).queue = s.queue := rfl
@[simp] theorem State.withLines_reports : (s.withLines x).reports = s.reports := rfl
@[simp] theorem State.withLines_commands : (s.withLines x).commands = s.commands := rfl
@[simp] theorem State.withLines_config : (s.withLines x).config = s.config := rfl
@[simp] theorem State.withLines_lines : (s.withLines x).lines = x := rfl
@[simp] theorem State.withLines_pins : (s.withLines x).pins = s.pins := rfl
@[simp] theorem State.withLines_pending : (s.withLines x).pending = s.pending := rfl

@[simp] theorem State.withLines_readers :
    (s.withLines x).activeBank = s.activeBank ∧
    (s.withLines x).shadowBank = s.shadowBank ∧
    (∀ i : Fin 32, (s.withLines x).slotRecord i = s.slotRecord i) ∧
    (∀ i : Fin 64, (s.withLines x).entryRecord i = s.entryRecord i) ∧
    (∀ i : Fin 32, (s.withLines x).slot i = s.slot i) ∧
    (∀ i : Fin 64, (s.withLines x).entry i = s.entry i) ∧
    (s.withLines x).cycleNumber = s.cycleNumber ∧
    (s.withLines x).isAwake = s.isAwake :=
  ⟨rfl, rfl, fun _ => rfl, fun _ => rfl, fun _ => rfl, fun _ => rfl, rfl, rfl⟩

end

section
variable (s : State) (x : Pins)

@[simp] theorem State.withPins_frames : (s.withPins x).frames = s.frames := rfl
@[simp] theorem State.withPins_cycle : (s.withPins x).cycle = s.cycle := rfl
@[simp] theorem State.withPins_channels : (s.withPins x).channels = s.channels := rfl
@[simp] theorem State.withPins_matcher : (s.withPins x).matcher = s.matcher := rfl
@[simp] theorem State.withPins_queue : (s.withPins x).queue = s.queue := rfl
@[simp] theorem State.withPins_reports : (s.withPins x).reports = s.reports := rfl
@[simp] theorem State.withPins_commands : (s.withPins x).commands = s.commands := rfl
@[simp] theorem State.withPins_config : (s.withPins x).config = s.config := rfl
@[simp] theorem State.withPins_lines : (s.withPins x).lines = s.lines := rfl
@[simp] theorem State.withPins_pins : (s.withPins x).pins = x := rfl
@[simp] theorem State.withPins_pending : (s.withPins x).pending = s.pending := rfl

@[simp] theorem State.withPins_readers :
    (s.withPins x).activeBank = s.activeBank ∧
    (s.withPins x).shadowBank = s.shadowBank ∧
    (∀ i : Fin 32, (s.withPins x).slotRecord i = s.slotRecord i) ∧
    (∀ i : Fin 64, (s.withPins x).entryRecord i = s.entryRecord i) ∧
    (∀ i : Fin 32, (s.withPins x).slot i = s.slot i) ∧
    (∀ i : Fin 64, (s.withPins x).entry i = s.entry i) ∧
    (s.withPins x).cycleNumber = s.cycleNumber :=
  ⟨rfl, rfl, fun _ => rfl, fun _ => rfl, fun _ => rfl, fun _ => rfl, rfl⟩

end

section
variable (s : State) (x : List Instr)

@[simp] theorem State.withPending_frames : (s.withPending x).frames = s.frames := rfl
@[simp] theorem State.withPending_cycle : (s.withPending x).cycle = s.cycle := rfl
@[simp] theorem State.withPending_channels : (s.withPending x).channels = s.channels := rfl
@[simp] theorem State.withPending_matcher : (s.withPending x).matcher = s.matcher := rfl
@[simp] theorem State.withPending_queue : (s.withPending x).queue = s.queue := rfl
@[simp] theorem State.withPending_reports : (s.withPending x).reports = s.reports := rfl
@[simp] theorem State.withPending_commands : (s.withPending x).commands = s.commands := rfl
@[simp] theorem State.withPending_config : (s.withPending x).config = s.config := rfl
@[simp] theorem State.withPending_lines : (s.withPending x).lines = s.lines := rfl
@[simp] theorem State.withPending_pins : (s.withPending x).pins = s.pins := rfl
@[simp] theorem State.withPending_pending : (s.withPending x).pending = x := rfl

@[simp] theorem State.withPending_readers :
    (s.withPending x).activeBank = s.activeBank ∧
    (s.withPending x).shadowBank = s.shadowBank ∧
    (∀ i : Fin 32, (s.withPending x).slotRecord i = s.slotRecord i) ∧
    (∀ i : Fin 64, (s.withPending x).entryRecord i = s.entryRecord i) ∧
    (∀ i : Fin 32, (s.withPending x).slot i = s.slot i) ∧
    (∀ i : Fin 64, (s.withPending x).entry i = s.entry i) ∧
    (s.withPending x).cycleNumber = s.cycleNumber ∧
    (s.withPending x).isAwake = s.isAwake :=
  ⟨rfl, rfl, fun _ => rfl, fun _ => rfl, fun _ => rfl, fun _ => rfl, rfl, rfl⟩

end

end Sys2Proof.Machine
end

