-- ==== Sys2Proof/Laws/Frames.lean ====
section
/-! SUPPORT. The frame of each shared operation: the fields of State it leaves as they are, and so what the readers of those
fields still give. -/

namespace Sys2Proof.Machine

@[simp] theorem post_keeps (p : Fin 4) (d : Detail) (s : State) :
    (post p d s).frames = s.frames ∧ (post p d s).cycle = s.cycle ∧ (post p d s).channels = s.channels ∧
    (post p d s).matcher = s.matcher ∧ (post p d s).reports = s.reports ∧ (post p d s).commands = s.commands ∧
    (post p d s).config = s.config ∧ (post p d s).lines = s.lines ∧ (post p d s).pins = s.pins ∧
    (post p d s).pending = s.pending :=
  by simp [post]

@[simp] theorem post_readers (p : Fin 4) (d : Detail) (s : State) :
    (post p d s).activeBank = s.activeBank ∧ (post p d s).shadowBank = s.shadowBank ∧
    (∀ j : Fin 32, (post p d s).slotRecord j = s.slotRecord j) ∧
    (∀ j : Fin 64, (post p d s).entryRecord j = s.entryRecord j) ∧
    (∀ j : Fin 32, (post p d s).slot j = s.slot j) ∧ (∀ j : Fin 64, (post p d s).entry j = s.entry j) ∧
    (post p d s).cycleNumber = s.cycleNumber ∧ (post p d s).isAwake = s.isAwake :=
  by simp [State.activeBank, State.cycleNumber, State.entry, State.entryRecord, State.isAwake, State.shadowBank, State.slot, State.slotRecord]

@[simp] theorem postAll_keeps (l : List (Fin 4 × Detail)) (s : State) :
    (postAll l s).frames = s.frames ∧ (postAll l s).cycle = s.cycle ∧ (postAll l s).channels = s.channels ∧
    (postAll l s).matcher = s.matcher ∧ (postAll l s).reports = s.reports ∧
    (postAll l s).commands = s.commands ∧ (postAll l s).config = s.config ∧ (postAll l s).lines = s.lines ∧
    (postAll l s).pins = s.pins ∧ (postAll l s).pending = s.pending :=
  by
  induction l generalizing s with
  | nil => simp [postAll]
  | cons r l ih =>
    have h := ih (post r.1 r.2 s)
    simp only [postAll, List.foldl_cons] at h ⊢
    simpa using h

@[simp] theorem postAll_readers (l : List (Fin 4 × Detail)) (s : State) :
    (postAll l s).activeBank = s.activeBank ∧ (postAll l s).shadowBank = s.shadowBank ∧
    (∀ j : Fin 32, (postAll l s).slotRecord j = s.slotRecord j) ∧
    (∀ j : Fin 64, (postAll l s).entryRecord j = s.entryRecord j) ∧
    (∀ j : Fin 32, (postAll l s).slot j = s.slot j) ∧ (∀ j : Fin 64, (postAll l s).entry j = s.entry j) ∧
    (postAll l s).cycleNumber = s.cycleNumber ∧ (postAll l s).isAwake = s.isAwake :=
  by simp [State.activeBank, State.cycleNumber, State.entry, State.entryRecord, State.isAwake, State.shadowBank, State.slot, State.slotRecord]

@[simp] theorem complete_keeps (q : Request) (o : RequestOutcome) (r : Reason) (d : List Byte) (s : State) :
    (complete q o r d s).frames = s.frames ∧ (complete q o r d s).cycle = s.cycle ∧
    (complete q o r d s).channels = s.channels ∧ (complete q o r d s).matcher = s.matcher ∧
    (complete q o r d s).queue = s.queue ∧ (complete q o r d s).reports = s.reports ∧
    (complete q o r d s).config = s.config ∧ (complete q o r d s).lines = s.lines ∧
    (complete q o r d s).pins = s.pins ∧ (complete q o r d s).pending = s.pending :=
  by simp [complete]

@[simp] theorem complete_readers (q : Request) (o : RequestOutcome) (r : Reason) (d : List Byte) (s : State) :
    (complete q o r d s).activeBank = s.activeBank ∧ (complete q o r d s).shadowBank = s.shadowBank ∧
    (∀ j : Fin 32, (complete q o r d s).slotRecord j = s.slotRecord j) ∧
    (∀ j : Fin 64, (complete q o r d s).entryRecord j = s.entryRecord j) ∧
    (∀ j : Fin 32, (complete q o r d s).slot j = s.slot j) ∧
    (∀ j : Fin 64, (complete q o r d s).entry j = s.entry j) ∧
    (complete q o r d s).cycleNumber = s.cycleNumber ∧ (complete q o r d s).isAwake = s.isAwake :=
  by simp [State.activeBank, State.cycleNumber, State.entry, State.entryRecord, State.isAwake, State.shadowBank, State.slot, State.slotRecord]

@[simp] theorem refuse_keeps (q : Request) (r : Reason) (s : State) :
    (refuse q r s).frames = s.frames ∧ (refuse q r s).cycle = s.cycle ∧ (refuse q r s).channels = s.channels ∧
    (refuse q r s).matcher = s.matcher ∧ (refuse q r s).queue = s.queue ∧ (refuse q r s).reports = s.reports ∧
    (refuse q r s).config = s.config ∧ (refuse q r s).lines = s.lines ∧ (refuse q r s).pins = s.pins ∧
    (refuse q r s).pending = s.pending :=
  by simp [refuse]

@[simp] theorem refuse_readers (q : Request) (r : Reason) (s : State) :
    (refuse q r s).activeBank = s.activeBank ∧ (refuse q r s).shadowBank = s.shadowBank ∧
    (∀ j : Fin 32, (refuse q r s).slotRecord j = s.slotRecord j) ∧
    (∀ j : Fin 64, (refuse q r s).entryRecord j = s.entryRecord j) ∧
    (∀ j : Fin 32, (refuse q r s).slot j = s.slot j) ∧ (∀ j : Fin 64, (refuse q r s).entry j = s.entry j) ∧
    (refuse q r s).cycleNumber = s.cycleNumber ∧ (refuse q r s).isAwake = s.isAwake :=
  by simp [State.activeBank, State.cycleNumber, State.entry, State.entryRecord, State.isAwake, State.shadowBank, State.slot, State.slotRecord]

@[simp] theorem done_keeps (q : Request) (d : List Byte) (s : State) :
    (done q d s).frames = s.frames ∧ (done q d s).cycle = s.cycle ∧ (done q d s).channels = s.channels ∧
    (done q d s).matcher = s.matcher ∧ (done q d s).queue = s.queue ∧ (done q d s).reports = s.reports ∧
    (done q d s).config = s.config ∧ (done q d s).lines = s.lines ∧ (done q d s).pins = s.pins ∧
    (done q d s).pending = s.pending :=
  by simp [done]

@[simp] theorem done_readers (q : Request) (d : List Byte) (s : State) :
    (done q d s).activeBank = s.activeBank ∧ (done q d s).shadowBank = s.shadowBank ∧
    (∀ j : Fin 32, (done q d s).slotRecord j = s.slotRecord j) ∧
    (∀ j : Fin 64, (done q d s).entryRecord j = s.entryRecord j) ∧
    (∀ j : Fin 32, (done q d s).slot j = s.slot j) ∧ (∀ j : Fin 64, (done q d s).entry j = s.entry j) ∧
    (done q d s).cycleNumber = s.cycleNumber ∧ (done q d s).isAwake = s.isAwake :=
  by simp [State.activeBank, State.cycleNumber, State.entry, State.entryRecord, State.isAwake, State.shadowBank, State.slot, State.slotRecord]

@[simp] theorem State.withShadowBank_keeps (b : Bank) (s : State) :
    (State.withShadowBank s b).frames = s.frames ∧ (State.withShadowBank s b).cycle = s.cycle ∧
    (State.withShadowBank s b).channels = s.channels ∧ (State.withShadowBank s b).matcher = s.matcher ∧
    (State.withShadowBank s b).queue = s.queue ∧ (State.withShadowBank s b).reports = s.reports ∧
    (State.withShadowBank s b).commands = s.commands ∧ (State.withShadowBank s b).lines = s.lines ∧
    (State.withShadowBank s b).pins = s.pins ∧ (State.withShadowBank s b).pending = s.pending :=
  by simp [State.withShadowBank]

@[simp] theorem State.withShadowBank_readers (b : Bank) (s : State) :
    (∀ j : Fin 32, (State.withShadowBank s b).slot j = s.slot j) ∧
    (∀ j : Fin 64, (State.withShadowBank s b).entry j = s.entry j) ∧
    (State.withShadowBank s b).cycleNumber = s.cycleNumber ∧ (State.withShadowBank s b).isAwake = s.isAwake :=
  by simp [State.cycleNumber, State.entry, State.isAwake, State.slot]

@[simp] theorem State.withSlot_keeps (i : Fin 32) (d : SlotState) (s : State) :
    (State.withSlot s i d).frames = s.frames ∧ (State.withSlot s i d).cycle = s.cycle ∧
    (State.withSlot s i d).matcher = s.matcher ∧ (State.withSlot s i d).queue = s.queue ∧
    (State.withSlot s i d).reports = s.reports ∧ (State.withSlot s i d).commands = s.commands ∧
    (State.withSlot s i d).config = s.config ∧ (State.withSlot s i d).lines = s.lines ∧
    (State.withSlot s i d).pins = s.pins ∧ (State.withSlot s i d).pending = s.pending :=
  by simp [State.withSlot]

@[simp] theorem State.withSlot_readers (i : Fin 32) (d : SlotState) (s : State) :
    (State.withSlot s i d).activeBank = s.activeBank ∧ (State.withSlot s i d).shadowBank = s.shadowBank ∧
    (∀ j : Fin 32, (State.withSlot s i d).slotRecord j = s.slotRecord j) ∧
    (∀ j : Fin 64, (State.withSlot s i d).entryRecord j = s.entryRecord j) ∧
    (∀ j : Fin 64, (State.withSlot s i d).entry j = s.entry j) ∧
    (State.withSlot s i d).cycleNumber = s.cycleNumber ∧ (State.withSlot s i d).isAwake = s.isAwake :=
  by simp [State.activeBank, State.cycleNumber, State.entry, State.entryRecord, State.isAwake, State.shadowBank, State.slotRecord]

@[simp] theorem State.withSlots_keeps (f : Fin 32 → SlotState) (s : State) :
    (State.withSlots s f).frames = s.frames ∧ (State.withSlots s f).cycle = s.cycle ∧
    (State.withSlots s f).matcher = s.matcher ∧ (State.withSlots s f).queue = s.queue ∧
    (State.withSlots s f).reports = s.reports ∧ (State.withSlots s f).commands = s.commands ∧
    (State.withSlots s f).config = s.config ∧ (State.withSlots s f).lines = s.lines ∧
    (State.withSlots s f).pins = s.pins ∧ (State.withSlots s f).pending = s.pending :=
  by simp [State.withSlots]

@[simp] theorem State.withSlots_readers (f : Fin 32 → SlotState) (s : State) :
    (State.withSlots s f).activeBank = s.activeBank ∧ (State.withSlots s f).shadowBank = s.shadowBank ∧
    (∀ j : Fin 32, (State.withSlots s f).slotRecord j = s.slotRecord j) ∧
    (∀ j : Fin 64, (State.withSlots s f).entryRecord j = s.entryRecord j) ∧
    (∀ j : Fin 64, (State.withSlots s f).entry j = s.entry j) ∧
    (State.withSlots s f).cycleNumber = s.cycleNumber ∧ (State.withSlots s f).isAwake = s.isAwake :=
  by simp [State.activeBank, State.cycleNumber, State.entry, State.entryRecord, State.isAwake, State.shadowBank, State.slotRecord]

@[simp] theorem State.withEntry_keeps (i : Fin 64) (e : EntryState) (s : State) :
    (State.withEntry s i e).frames = s.frames ∧ (State.withEntry s i e).cycle = s.cycle ∧
    (State.withEntry s i e).channels = s.channels ∧ (State.withEntry s i e).queue = s.queue ∧
    (State.withEntry s i e).reports = s.reports ∧ (State.withEntry s i e).commands = s.commands ∧
    (State.withEntry s i e).config = s.config ∧ (State.withEntry s i e).lines = s.lines ∧
    (State.withEntry s i e).pins = s.pins ∧ (State.withEntry s i e).pending = s.pending :=
  by simp [State.withEntry]

@[simp] theorem State.withEntry_readers (i : Fin 64) (e : EntryState) (s : State) :
    (State.withEntry s i e).activeBank = s.activeBank ∧ (State.withEntry s i e).shadowBank = s.shadowBank ∧
    (∀ j : Fin 32, (State.withEntry s i e).slotRecord j = s.slotRecord j) ∧
    (∀ j : Fin 64, (State.withEntry s i e).entryRecord j = s.entryRecord j) ∧
    (∀ j : Fin 32, (State.withEntry s i e).slot j = s.slot j) ∧
    (State.withEntry s i e).cycleNumber = s.cycleNumber ∧ (State.withEntry s i e).isAwake = s.isAwake :=
  by simp [State.activeBank, State.cycleNumber, State.entryRecord, State.isAwake, State.shadowBank, State.slot, State.slotRecord]

@[simp] theorem State.withEntries_keeps (f : Fin 64 → EntryState) (s : State) :
    (State.withEntries s f).frames = s.frames ∧ (State.withEntries s f).cycle = s.cycle ∧
    (State.withEntries s f).channels = s.channels ∧ (State.withEntries s f).queue = s.queue ∧
    (State.withEntries s f).reports = s.reports ∧ (State.withEntries s f).commands = s.commands ∧
    (State.withEntries s f).config = s.config ∧ (State.withEntries s f).lines = s.lines ∧
    (State.withEntries s f).pins = s.pins ∧ (State.withEntries s f).pending = s.pending :=
  by simp [State.withEntries]

@[simp] theorem State.withEntries_readers (f : Fin 64 → EntryState) (s : State) :
    (State.withEntries s f).activeBank = s.activeBank ∧ (State.withEntries s f).shadowBank = s.shadowBank ∧
    (∀ j : Fin 32, (State.withEntries s f).slotRecord j = s.slotRecord j) ∧
    (∀ j : Fin 64, (State.withEntries s f).entryRecord j = s.entryRecord j) ∧
    (∀ j : Fin 32, (State.withEntries s f).slot j = s.slot j) ∧
    (State.withEntries s f).cycleNumber = s.cycleNumber ∧ (State.withEntries s f).isAwake = s.isAwake :=
  by simp [State.activeBank, State.cycleNumber, State.entryRecord, State.isAwake, State.shadowBank, State.slot, State.slotRecord]

@[simp] theorem settleLines_keeps (s : State) :
    (settleLines s).frames = s.frames ∧ (settleLines s).cycle = s.cycle ∧
    (settleLines s).channels = s.channels ∧ (settleLines s).matcher = s.matcher ∧
    (settleLines s).queue = s.queue ∧ (settleLines s).reports = s.reports ∧
    (settleLines s).commands = s.commands ∧ (settleLines s).config = s.config ∧ (settleLines s).pins = s.pins ∧
    (settleLines s).pending = s.pending :=
  by simp [settleLines]

@[simp] theorem settleLines_readers (s : State) :
    (settleLines s).activeBank = s.activeBank ∧ (settleLines s).shadowBank = s.shadowBank ∧
    (∀ j : Fin 32, (settleLines s).slotRecord j = s.slotRecord j) ∧
    (∀ j : Fin 64, (settleLines s).entryRecord j = s.entryRecord j) ∧
    (∀ j : Fin 32, (settleLines s).slot j = s.slot j) ∧ (∀ j : Fin 64, (settleLines s).entry j = s.entry j) ∧
    (settleLines s).cycleNumber = s.cycleNumber ∧ (settleLines s).isAwake = s.isAwake :=
  by simp [State.activeBank, State.cycleNumber, State.entry, State.entryRecord, State.isAwake, State.shadowBank, State.slot, State.slotRecord]

@[simp] theorem deliver_keeps (i : Fin 32) (p : Word) (s : State) :
    (deliver i p s).frames = s.frames ∧ (deliver i p s).cycle = s.cycle ∧
    (deliver i p s).channels = s.channels ∧ (deliver i p s).reports = s.reports ∧
    (deliver i p s).commands = s.commands ∧ (deliver i p s).config = s.config ∧
    (deliver i p s).lines = s.lines ∧ (deliver i p s).pins = s.pins ∧ (deliver i p s).pending = s.pending :=
  by simp [deliver]

@[simp] theorem deliver_readers (i : Fin 32) (p : Word) (s : State) :
    (deliver i p s).activeBank = s.activeBank ∧ (deliver i p s).shadowBank = s.shadowBank ∧
    (∀ j : Fin 32, (deliver i p s).slotRecord j = s.slotRecord j) ∧
    (∀ j : Fin 64, (deliver i p s).entryRecord j = s.entryRecord j) ∧
    (∀ j : Fin 32, (deliver i p s).slot j = s.slot j) ∧ (deliver i p s).cycleNumber = s.cycleNumber ∧
    (deliver i p s).isAwake = s.isAwake :=
  by simp [State.activeBank, State.cycleNumber, State.entryRecord, State.isAwake, State.shadowBank, State.slot, State.slotRecord]

@[simp] theorem leaveTracking_keeps (left : Fin 32 → Bool) (s : State) :
    (leaveTracking left s).frames = s.frames ∧ (leaveTracking left s).cycle = s.cycle ∧
    (leaveTracking left s).channels = s.channels ∧ (leaveTracking left s).reports = s.reports ∧
    (leaveTracking left s).commands = s.commands ∧ (leaveTracking left s).config = s.config ∧
    (leaveTracking left s).lines = s.lines ∧ (leaveTracking left s).pins = s.pins ∧
    (leaveTracking left s).pending = s.pending :=
  by simp [leaveTracking]

@[simp] theorem leaveTracking_readers (left : Fin 32 → Bool) (s : State) :
    (leaveTracking left s).activeBank = s.activeBank ∧ (leaveTracking left s).shadowBank = s.shadowBank ∧
    (∀ j : Fin 32, (leaveTracking left s).slotRecord j = s.slotRecord j) ∧
    (∀ j : Fin 64, (leaveTracking left s).entryRecord j = s.entryRecord j) ∧
    (∀ j : Fin 32, (leaveTracking left s).slot j = s.slot j) ∧
    (leaveTracking left s).cycleNumber = s.cycleNumber ∧ (leaveTracking left s).isAwake = s.isAwake :=
  by simp [State.activeBank, State.cycleNumber, State.entryRecord, State.isAwake, State.shadowBank, State.slot, State.slotRecord]

@[simp] theorem changeSlots_keeps (after : Fin 32 → SlotState) (l : List (Fin 4 × Detail)) (s : State) :
    (changeSlots after l s).frames = s.frames ∧ (changeSlots after l s).cycle = s.cycle ∧
    (changeSlots after l s).reports = s.reports ∧ (changeSlots after l s).commands = s.commands ∧
    (changeSlots after l s).config = s.config ∧ (changeSlots after l s).lines = s.lines ∧
    (changeSlots after l s).pins = s.pins ∧ (changeSlots after l s).pending = s.pending :=
  by simp [changeSlots]

@[simp] theorem changeSlots_readers (after : Fin 32 → SlotState) (l : List (Fin 4 × Detail)) (s : State) :
    (changeSlots after l s).activeBank = s.activeBank ∧ (changeSlots after l s).shadowBank = s.shadowBank ∧
    (∀ j : Fin 32, (changeSlots after l s).slotRecord j = s.slotRecord j) ∧
    (∀ j : Fin 64, (changeSlots after l s).entryRecord j = s.entryRecord j) ∧
    (changeSlots after l s).cycleNumber = s.cycleNumber ∧ (changeSlots after l s).isAwake = s.isAwake :=
  by simp [State.activeBank, State.cycleNumber, State.entryRecord, State.isAwake, State.shadowBank, State.slotRecord]

@[simp] theorem evaluateCycleEnd_keeps (s : State) :
    (evaluateCycleEnd s).frames = s.frames ∧ (evaluateCycleEnd s).cycle = s.cycle ∧
    (evaluateCycleEnd s).reports = s.reports ∧ (evaluateCycleEnd s).commands = s.commands ∧
    (evaluateCycleEnd s).config = s.config ∧ (evaluateCycleEnd s).lines = s.lines ∧
    (evaluateCycleEnd s).pins = s.pins ∧ (evaluateCycleEnd s).pending = s.pending :=
  by simp [evaluateCycleEnd]

@[simp] theorem evaluateCycleEnd_readers (s : State) :
    (evaluateCycleEnd s).activeBank = s.activeBank ∧ (evaluateCycleEnd s).shadowBank = s.shadowBank ∧
    (∀ j : Fin 32, (evaluateCycleEnd s).slotRecord j = s.slotRecord j) ∧
    (∀ j : Fin 64, (evaluateCycleEnd s).entryRecord j = s.entryRecord j) ∧
    (evaluateCycleEnd s).cycleNumber = s.cycleNumber ∧ (evaluateCycleEnd s).isAwake = s.isAwake :=
  by simp [State.activeBank, State.cycleNumber, State.entryRecord, State.isAwake, State.shadowBank, State.slotRecord]

@[simp] theorem stallSlots_keeps (s : State) :
    (stallSlots s).frames = s.frames ∧ (stallSlots s).cycle = s.cycle ∧ (stallSlots s).reports = s.reports ∧
    (stallSlots s).commands = s.commands ∧ (stallSlots s).config = s.config ∧ (stallSlots s).lines = s.lines ∧
    (stallSlots s).pins = s.pins ∧ (stallSlots s).pending = s.pending :=
  by simp [stallSlots]

@[simp] theorem stallSlots_readers (s : State) :
    (stallSlots s).activeBank = s.activeBank ∧ (stallSlots s).shadowBank = s.shadowBank ∧
    (∀ j : Fin 32, (stallSlots s).slotRecord j = s.slotRecord j) ∧
    (∀ j : Fin 64, (stallSlots s).entryRecord j = s.entryRecord j) ∧
    (stallSlots s).cycleNumber = s.cycleNumber ∧ (stallSlots s).isAwake = s.isAwake :=
  by simp [State.activeBank, State.cycleNumber, State.entryRecord, State.isAwake, State.shadowBank, State.slotRecord]

@[simp] theorem takeValid_keeps (i : Fin 32) (m : Sample) (s : State) :
    (takeValid i m s).frames = s.frames ∧ (takeValid i m s).cycle = s.cycle ∧
    (takeValid i m s).reports = s.reports ∧ (takeValid i m s).commands = s.commands ∧
    (takeValid i m s).config = s.config ∧ (takeValid i m s).lines = s.lines ∧ (takeValid i m s).pins = s.pins ∧
    (takeValid i m s).pending = s.pending :=
  by
  unfold takeValid
  dsimp only
  split_ifs <;> simp

@[simp] theorem takeValid_readers (i : Fin 32) (m : Sample) (s : State) :
    (takeValid i m s).activeBank = s.activeBank ∧ (takeValid i m s).shadowBank = s.shadowBank ∧
    (∀ j : Fin 32, (takeValid i m s).slotRecord j = s.slotRecord j) ∧
    (∀ j : Fin 64, (takeValid i m s).entryRecord j = s.entryRecord j) ∧
    (takeValid i m s).cycleNumber = s.cycleNumber ∧ (takeValid i m s).isAwake = s.isAwake :=
  by simp [State.activeBank, State.cycleNumber, State.entryRecord, State.isAwake, State.shadowBank, State.slotRecord]

@[simp] theorem takeSample_keeps (address : Byte) (body : List Byte) (s : State) :
    ((takeSample address body s).1).frames = s.frames ∧ ((takeSample address body s).1).cycle = s.cycle ∧
    ((takeSample address body s).1).reports = s.reports ∧
    ((takeSample address body s).1).commands = s.commands ∧ ((takeSample address body s).1).config = s.config ∧
    ((takeSample address body s).1).pins = s.pins ∧ ((takeSample address body s).1).pending = s.pending :=
  by
  unfold takeSample
  cases parseSample address body with
  | none => simp
  | some m => dsimp only; split <;> simp

@[simp] theorem takeSample_readers (address : Byte) (body : List Byte) (s : State) :
    ((takeSample address body s).1).activeBank = s.activeBank ∧
    ((takeSample address body s).1).shadowBank = s.shadowBank ∧
    (∀ j : Fin 32, ((takeSample address body s).1).slotRecord j = s.slotRecord j) ∧
    (∀ j : Fin 64, ((takeSample address body s).1).entryRecord j = s.entryRecord j) ∧
    ((takeSample address body s).1).cycleNumber = s.cycleNumber ∧
    ((takeSample address body s).1).isAwake = s.isAwake :=
  by simp [State.activeBank, State.cycleNumber, State.entryRecord, State.isAwake, State.shadowBank, State.slotRecord]

@[simp] theorem admitInbound_keeps (bytes : List Byte) (s : State) :
    (admitInbound bytes s).cycle = s.cycle ∧ (admitInbound bytes s).channels = s.channels ∧
    (admitInbound bytes s).matcher = s.matcher ∧ (admitInbound bytes s).queue = s.queue ∧
    (admitInbound bytes s).reports = s.reports ∧ (admitInbound bytes s).commands = s.commands ∧
    (admitInbound bytes s).config = s.config ∧ (admitInbound bytes s).lines = s.lines ∧
    (admitInbound bytes s).pins = s.pins ∧ (admitInbound bytes s).pending = s.pending :=
  by unfold admitInbound; dsimp only; split_ifs <;> simp

@[simp] theorem admitInbound_readers (bytes : List Byte) (s : State) :
    (admitInbound bytes s).activeBank = s.activeBank ∧ (admitInbound bytes s).shadowBank = s.shadowBank ∧
    (∀ j : Fin 32, (admitInbound bytes s).slotRecord j = s.slotRecord j) ∧
    (∀ j : Fin 64, (admitInbound bytes s).entryRecord j = s.entryRecord j) ∧
    (∀ j : Fin 32, (admitInbound bytes s).slot j = s.slot j) ∧
    (∀ j : Fin 64, (admitInbound bytes s).entry j = s.entry j) ∧
    (admitInbound bytes s).cycleNumber = s.cycleNumber ∧ (admitInbound bytes s).isAwake = s.isAwake :=
  by simp [State.activeBank, State.cycleNumber, State.entry, State.entryRecord, State.isAwake, State.shadowBank, State.slot, State.slotRecord]

@[simp] theorem placeEnd_keeps (r : List Byte) (c : InboundFrame) (s : State) :
    (placeEnd r c s).cycle = s.cycle ∧ (placeEnd r c s).channels = s.channels ∧
    (placeEnd r c s).matcher = s.matcher ∧ (placeEnd r c s).queue = s.queue ∧
    (placeEnd r c s).reports = s.reports ∧ (placeEnd r c s).commands = s.commands ∧
    (placeEnd r c s).config = s.config ∧ (placeEnd r c s).lines = s.lines ∧ (placeEnd r c s).pins = s.pins ∧
    (placeEnd r c s).pending = s.pending :=
  by simp [placeEnd]

@[simp] theorem placeEnd_readers (r : List Byte) (c : InboundFrame) (s : State) :
    (placeEnd r c s).activeBank = s.activeBank ∧ (placeEnd r c s).shadowBank = s.shadowBank ∧
    (∀ j : Fin 32, (placeEnd r c s).slotRecord j = s.slotRecord j) ∧
    (∀ j : Fin 64, (placeEnd r c s).entryRecord j = s.entryRecord j) ∧
    (∀ j : Fin 32, (placeEnd r c s).slot j = s.slot j) ∧ (∀ j : Fin 64, (placeEnd r c s).entry j = s.entry j) ∧
    (placeEnd r c s).cycleNumber = s.cycleNumber ∧ (placeEnd r c s).isAwake = s.isAwake :=
  by simp [State.activeBank, State.cycleNumber, State.entry, State.entryRecord, State.isAwake, State.shadowBank, State.slot, State.slotRecord]

@[simp] theorem countBadFrame_keeps (b : Bool) (s : State) :
    (countBadFrame b s).cycle = s.cycle ∧ (countBadFrame b s).channels = s.channels ∧
    (countBadFrame b s).matcher = s.matcher ∧ (countBadFrame b s).queue = s.queue ∧
    (countBadFrame b s).reports = s.reports ∧ (countBadFrame b s).commands = s.commands ∧
    (countBadFrame b s).config = s.config ∧ (countBadFrame b s).lines = s.lines ∧
    (countBadFrame b s).pins = s.pins ∧ (countBadFrame b s).pending = s.pending :=
  by simp [countBadFrame]

@[simp] theorem countBadFrame_readers (b : Bool) (s : State) :
    (countBadFrame b s).activeBank = s.activeBank ∧ (countBadFrame b s).shadowBank = s.shadowBank ∧
    (∀ j : Fin 32, (countBadFrame b s).slotRecord j = s.slotRecord j) ∧
    (∀ j : Fin 64, (countBadFrame b s).entryRecord j = s.entryRecord j) ∧
    (∀ j : Fin 32, (countBadFrame b s).slot j = s.slot j) ∧
    (∀ j : Fin 64, (countBadFrame b s).entry j = s.entry j) ∧ (countBadFrame b s).cycleNumber = s.cycleNumber ∧
    (countBadFrame b s).isAwake = s.isAwake :=
  by simp [State.activeBank, State.cycleNumber, State.entry, State.entryRecord, State.isAwake, State.shadowBank, State.slot, State.slotRecord]

@[simp] theorem drawItems_keeps (s : State) :
    (drawItems s).frames = s.frames ∧ (drawItems s).cycle = s.cycle ∧ (drawItems s).channels = s.channels ∧
    (drawItems s).matcher = s.matcher ∧ (drawItems s).config = s.config ∧ (drawItems s).lines = s.lines ∧
    (drawItems s).pins = s.pins ∧ (drawItems s).pending = s.pending :=
  by simp [drawItems]

@[simp] theorem drawItems_readers (s : State) :
    (drawItems s).activeBank = s.activeBank ∧ (drawItems s).shadowBank = s.shadowBank ∧
    (∀ j : Fin 32, (drawItems s).slotRecord j = s.slotRecord j) ∧
    (∀ j : Fin 64, (drawItems s).entryRecord j = s.entryRecord j) ∧
    (∀ j : Fin 32, (drawItems s).slot j = s.slot j) ∧ (∀ j : Fin 64, (drawItems s).entry j = s.entry j) ∧
    (drawItems s).cycleNumber = s.cycleNumber ∧ (drawItems s).isAwake = s.isAwake :=
  by simp [State.activeBank, State.cycleNumber, State.entry, State.entryRecord, State.isAwake, State.shadowBank, State.slot, State.slotRecord]

@[simp] theorem numberReport_keeps (s : State) :
    (numberReport s).frames = s.frames ∧ (numberReport s).cycle = s.cycle ∧
    (numberReport s).channels = s.channels ∧ (numberReport s).matcher = s.matcher ∧
    (numberReport s).queue = s.queue ∧ (numberReport s).commands = s.commands ∧
    (numberReport s).config = s.config ∧ (numberReport s).lines = s.lines ∧ (numberReport s).pins = s.pins ∧
    (numberReport s).pending = s.pending :=
  by simp [numberReport]

@[simp] theorem numberReport_readers (s : State) :
    (numberReport s).activeBank = s.activeBank ∧ (numberReport s).shadowBank = s.shadowBank ∧
    (∀ j : Fin 32, (numberReport s).slotRecord j = s.slotRecord j) ∧
    (∀ j : Fin 64, (numberReport s).entryRecord j = s.entryRecord j) ∧
    (∀ j : Fin 32, (numberReport s).slot j = s.slot j) ∧ (∀ j : Fin 64, (numberReport s).entry j = s.entry j) ∧
    (numberReport s).cycleNumber = s.cycleNumber ∧ (numberReport s).isAwake = s.isAwake :=
  by simp [State.activeBank, State.cycleNumber, State.entry, State.entryRecord, State.isAwake, State.shadowBank, State.slot, State.slotRecord]

@[simp] theorem buildReport_keeps (s : State) :
    ((buildReport s).1).frames = s.frames ∧ ((buildReport s).1).cycle = s.cycle ∧
    ((buildReport s).1).channels = s.channels ∧ ((buildReport s).1).matcher = s.matcher ∧
    ((buildReport s).1).config = s.config ∧ ((buildReport s).1).lines = s.lines ∧
    ((buildReport s).1).pins = s.pins ∧ ((buildReport s).1).pending = s.pending :=
  by simp [buildReport]

@[simp] theorem buildReport_readers (s : State) :
    ((buildReport s).1).activeBank = s.activeBank ∧ ((buildReport s).1).shadowBank = s.shadowBank ∧
    (∀ j : Fin 32, ((buildReport s).1).slotRecord j = s.slotRecord j) ∧
    (∀ j : Fin 64, ((buildReport s).1).entryRecord j = s.entryRecord j) ∧
    (∀ j : Fin 32, ((buildReport s).1).slot j = s.slot j) ∧
    (∀ j : Fin 64, ((buildReport s).1).entry j = s.entry j) ∧ ((buildReport s).1).cycleNumber = s.cycleNumber ∧
    ((buildReport s).1).isAwake = s.isAwake :=
  by simp [State.activeBank, State.cycleNumber, State.entry, State.entryRecord, State.isAwake, State.shadowBank, State.slot, State.slotRecord]

@[simp] theorem applyAcks_keeps (acks : List (Byte × Byte)) (s : State) :
    (applyAcks acks s).frames = s.frames ∧ (applyAcks acks s).cycle = s.cycle ∧
    (applyAcks acks s).channels = s.channels ∧ (applyAcks acks s).matcher = s.matcher ∧
    (applyAcks acks s).queue = s.queue ∧ (applyAcks acks s).config = s.config ∧
    (applyAcks acks s).lines = s.lines ∧ (applyAcks acks s).pins = s.pins ∧
    (applyAcks acks s).pending = s.pending :=
  by unfold applyAcks; split_ifs <;> simp

@[simp] theorem applyAcks_readers (acks : List (Byte × Byte)) (s : State) :
    (applyAcks acks s).activeBank = s.activeBank ∧ (applyAcks acks s).shadowBank = s.shadowBank ∧
    (∀ j : Fin 32, (applyAcks acks s).slotRecord j = s.slotRecord j) ∧
    (∀ j : Fin 64, (applyAcks acks s).entryRecord j = s.entryRecord j) ∧
    (∀ j : Fin 32, (applyAcks acks s).slot j = s.slot j) ∧
    (∀ j : Fin 64, (applyAcks acks s).entry j = s.entry j) ∧ (applyAcks acks s).cycleNumber = s.cycleNumber ∧
    (applyAcks acks s).isAwake = s.isAwake :=
  by simp [State.activeBank, State.cycleNumber, State.entry, State.entryRecord, State.isAwake, State.shadowBank, State.slot, State.slotRecord]

@[simp] theorem carryOver_keeps (old : Bank) (s : State) :
    (carryOver old s).frames = s.frames ∧ (carryOver old s).cycle = s.cycle ∧
    (carryOver old s).reports = s.reports ∧ (carryOver old s).commands = s.commands ∧
    (carryOver old s).config = s.config ∧ (carryOver old s).lines = s.lines ∧ (carryOver old s).pins = s.pins ∧
    (carryOver old s).pending = s.pending :=
  by simp [carryOver]

@[simp] theorem carryOver_readers (old : Bank) (s : State) :
    (carryOver old s).activeBank = s.activeBank ∧ (carryOver old s).shadowBank = s.shadowBank ∧
    (∀ j : Fin 32, (carryOver old s).slotRecord j = s.slotRecord j) ∧
    (∀ j : Fin 64, (carryOver old s).entryRecord j = s.entryRecord j) ∧
    (carryOver old s).cycleNumber = s.cycleNumber ∧ (carryOver old s).isAwake = s.isAwake :=
  by simp [State.activeBank, State.cycleNumber, State.entryRecord, State.isAwake, State.shadowBank, State.slotRecord]

@[simp] theorem carryBanks_keeps (old : Bank) (s : State) :
    (carryBanks old s).frames = s.frames ∧ (carryBanks old s).cycle = s.cycle ∧
    (carryBanks old s).reports = s.reports ∧ (carryBanks old s).commands = s.commands ∧
    (carryBanks old s).config = s.config ∧ (carryBanks old s).pins = s.pins ∧
    (carryBanks old s).pending = s.pending :=
  by unfold carryBanks; split <;> simp

@[simp] theorem carryBanks_readers (old : Bank) (s : State) :
    (carryBanks old s).activeBank = s.activeBank ∧ (carryBanks old s).shadowBank = s.shadowBank ∧
    (∀ j : Fin 32, (carryBanks old s).slotRecord j = s.slotRecord j) ∧
    (∀ j : Fin 64, (carryBanks old s).entryRecord j = s.entryRecord j) ∧
    (carryBanks old s).cycleNumber = s.cycleNumber ∧ (carryBanks old s).isAwake = s.isAwake :=
  by simp [State.activeBank, State.cycleNumber, State.entryRecord, State.isAwake, State.shadowBank, State.slotRecord]

@[simp] theorem completeCommit_keeps (tag : Byte) (s : State) :
    (completeCommit tag s).frames = s.frames ∧ (completeCommit tag s).cycle = s.cycle ∧
    (completeCommit tag s).channels = s.channels ∧ (completeCommit tag s).matcher = s.matcher ∧
    (completeCommit tag s).queue = s.queue ∧ (completeCommit tag s).reports = s.reports ∧
    (completeCommit tag s).lines = s.lines ∧ (completeCommit tag s).pins = s.pins ∧
    (completeCommit tag s).pending = s.pending :=
  by simp [completeCommit]

@[simp] theorem completeCommit_readers (tag : Byte) (s : State) :
    (∀ j : Fin 32, (completeCommit tag s).slot j = s.slot j) ∧
    (∀ j : Fin 64, (completeCommit tag s).entry j = s.entry j) ∧
    (completeCommit tag s).cycleNumber = s.cycleNumber ∧ (completeCommit tag s).isAwake = s.isAwake :=
  by simp [State.cycleNumber, State.entry, State.isAwake, State.slot]

@[simp] theorem swapBanks_keeps (s : State) :
    (swapBanks s).frames = s.frames ∧ (swapBanks s).cycle = s.cycle ∧ (swapBanks s).reports = s.reports ∧
    (swapBanks s).pins = s.pins ∧ (swapBanks s).pending = s.pending :=
  by unfold swapBanks; split <;> simp

@[simp] theorem swapBanks_readers (s : State) :
    (swapBanks s).cycleNumber = s.cycleNumber ∧ (swapBanks s).isAwake = s.isAwake :=
  by simp [State.cycleNumber, State.isAwake]

@[simp] theorem completeMode_keeps (tag : Byte) (o : RequestOutcome) (r : Reason) (s : State) :
    (completeMode tag o r s).frames = s.frames ∧ (completeMode tag o r s).cycle = s.cycle ∧
    (completeMode tag o r s).channels = s.channels ∧ (completeMode tag o r s).matcher = s.matcher ∧
    (completeMode tag o r s).queue = s.queue ∧ (completeMode tag o r s).reports = s.reports ∧
    (completeMode tag o r s).lines = s.lines ∧ (completeMode tag o r s).pins = s.pins ∧
    (completeMode tag o r s).pending = s.pending :=
  by simp [completeMode]

@[simp] theorem completeMode_readers (tag : Byte) (o : RequestOutcome) (r : Reason) (s : State) :
    (∀ j : Fin 32, (completeMode tag o r s).slot j = s.slot j) ∧
    (∀ j : Fin 64, (completeMode tag o r s).entry j = s.entry j) ∧
    (completeMode tag o r s).cycleNumber = s.cycleNumber ∧ (completeMode tag o r s).isAwake = s.isAwake :=
  by simp [State.cycleNumber, State.entry, State.isAwake, State.slot]

@[simp] theorem enterMonitor_keeps (s : State) :
    (enterMonitor s).frames = s.frames ∧ (enterMonitor s).cycle = s.cycle ∧
    (enterMonitor s).matcher = s.matcher ∧ (enterMonitor s).queue = s.queue ∧
    (enterMonitor s).reports = s.reports ∧ (enterMonitor s).commands = s.commands ∧
    (enterMonitor s).lines = s.lines ∧ (enterMonitor s).pins = s.pins ∧ (enterMonitor s).pending = s.pending :=
  by simp [enterMonitor]

@[simp] theorem enterMonitor_readers (s : State) :
    (∀ j : Fin 64, (enterMonitor s).entry j = s.entry j) ∧ (enterMonitor s).cycleNumber = s.cycleNumber ∧
    (enterMonitor s).isAwake = s.isAwake :=
  by simp [State.cycleNumber, State.entry, State.isAwake]

@[simp] theorem enterStandby_keeps (s : State) :
    (enterStandby s).frames = s.frames ∧ (enterStandby s).cycle = s.cycle ∧ (enterStandby s).queue = s.queue ∧
    (enterStandby s).reports = s.reports ∧ (enterStandby s).commands = s.commands ∧
    (enterStandby s).lines = s.lines ∧ (enterStandby s).pins = s.pins ∧ (enterStandby s).pending = s.pending :=
  by simp [enterStandby]

@[simp] theorem enterStandby_readers (s : State) :
    (enterStandby s).cycleNumber = s.cycleNumber ∧ (enterStandby s).isAwake = s.isAwake :=
  by simp [State.cycleNumber, State.isAwake]

@[simp] theorem applyMode_keeps (s : State) :
    (applyMode s).frames = s.frames ∧ (applyMode s).cycle = s.cycle ∧ (applyMode s).reports = s.reports ∧
    (applyMode s).lines = s.lines ∧ (applyMode s).pins = s.pins ∧ (applyMode s).pending = s.pending :=
  by unfold applyMode; split <;> (try split_ifs) <;> simp

@[simp] theorem applyMode_readers (s : State) :
    (applyMode s).cycleNumber = s.cycleNumber ∧ (applyMode s).isAwake = s.isAwake :=
  by simp [State.cycleNumber, State.isAwake]

@[simp] theorem countCycle_keeps (f : CycleCounters → CycleCounters) (s : State) :
    (countCycle f s).frames = s.frames ∧ (countCycle f s).channels = s.channels ∧
    (countCycle f s).matcher = s.matcher ∧ (countCycle f s).queue = s.queue ∧
    (countCycle f s).reports = s.reports ∧ (countCycle f s).commands = s.commands ∧
    (countCycle f s).config = s.config ∧ (countCycle f s).lines = s.lines ∧ (countCycle f s).pins = s.pins ∧
    (countCycle f s).pending = s.pending :=
  by simp [countCycle]

@[simp] theorem countCycle_readers (f : CycleCounters → CycleCounters) (s : State) :
    (countCycle f s).activeBank = s.activeBank ∧ (countCycle f s).shadowBank = s.shadowBank ∧
    (∀ j : Fin 32, (countCycle f s).slotRecord j = s.slotRecord j) ∧
    (∀ j : Fin 64, (countCycle f s).entryRecord j = s.entryRecord j) ∧
    (∀ j : Fin 32, (countCycle f s).slot j = s.slot j) ∧ (∀ j : Fin 64, (countCycle f s).entry j = s.entry j) ∧
    (countCycle f s).isAwake = s.isAwake :=
  by simp [State.activeBank, State.entry, State.entryRecord, State.isAwake, State.shadowBank, State.slot, State.slotRecord]

@[simp] theorem closeLink_keeps (s : State) :
    (closeLink s).frames = s.frames ∧ (closeLink s).channels = s.channels ∧ (closeLink s).matcher = s.matcher ∧
    (closeLink s).queue = s.queue ∧ (closeLink s).reports = s.reports ∧ (closeLink s).commands = s.commands ∧
    (closeLink s).config = s.config ∧ (closeLink s).lines = s.lines ∧ (closeLink s).pins = s.pins ∧
    (closeLink s).pending = s.pending :=
  by simp [closeLink]

@[simp] theorem closeLink_readers (s : State) :
    (closeLink s).activeBank = s.activeBank ∧ (closeLink s).shadowBank = s.shadowBank ∧
    (∀ j : Fin 32, (closeLink s).slotRecord j = s.slotRecord j) ∧
    (∀ j : Fin 64, (closeLink s).entryRecord j = s.entryRecord j) ∧
    (∀ j : Fin 32, (closeLink s).slot j = s.slot j) ∧ (∀ j : Fin 64, (closeLink s).entry j = s.entry j) ∧
    (closeLink s).isAwake = s.isAwake :=
  by simp [State.activeBank, State.entry, State.entryRecord, State.isAwake, State.shadowBank, State.slot, State.slotRecord]

@[simp] theorem postFinding_keeps (e : CycleEnding) (s : State) :
    (postFinding e s).frames = s.frames ∧ (postFinding e s).cycle = s.cycle ∧
    (postFinding e s).channels = s.channels ∧ (postFinding e s).matcher = s.matcher ∧
    (postFinding e s).reports = s.reports ∧ (postFinding e s).commands = s.commands ∧
    (postFinding e s).config = s.config ∧ (postFinding e s).lines = s.lines ∧ (postFinding e s).pins = s.pins ∧
    (postFinding e s).pending = s.pending :=
  by cases e <;> simp [postFinding]

@[simp] theorem postFinding_readers (e : CycleEnding) (s : State) :
    (postFinding e s).activeBank = s.activeBank ∧ (postFinding e s).shadowBank = s.shadowBank ∧
    (∀ j : Fin 32, (postFinding e s).slotRecord j = s.slotRecord j) ∧
    (∀ j : Fin 64, (postFinding e s).entryRecord j = s.entryRecord j) ∧
    (∀ j : Fin 32, (postFinding e s).slot j = s.slot j) ∧
    (∀ j : Fin 64, (postFinding e s).entry j = s.entry j) ∧ (postFinding e s).cycleNumber = s.cycleNumber ∧
    (postFinding e s).isAwake = s.isAwake :=
  by simp [State.activeBank, State.cycleNumber, State.entry, State.entryRecord, State.isAwake, State.shadowBank, State.slot, State.slotRecord]

@[simp] theorem postCapture_keeps (s : State) :
    (postCapture s).frames = s.frames ∧ (postCapture s).channels = s.channels ∧
    (postCapture s).matcher = s.matcher ∧ (postCapture s).reports = s.reports ∧
    (postCapture s).commands = s.commands ∧ (postCapture s).config = s.config ∧
    (postCapture s).lines = s.lines ∧ (postCapture s).pins = s.pins ∧ (postCapture s).pending = s.pending :=
  by unfold postCapture; split <;> simp

@[simp] theorem postCapture_readers (s : State) :
    (postCapture s).activeBank = s.activeBank ∧ (postCapture s).shadowBank = s.shadowBank ∧
    (∀ j : Fin 32, (postCapture s).slotRecord j = s.slotRecord j) ∧
    (∀ j : Fin 64, (postCapture s).entryRecord j = s.entryRecord j) ∧
    (∀ j : Fin 32, (postCapture s).slot j = s.slot j) ∧ (∀ j : Fin 64, (postCapture s).entry j = s.entry j) ∧
    (postCapture s).isAwake = s.isAwake :=
  by simp [State.activeBank, State.entry, State.entryRecord, State.isAwake, State.shadowBank, State.slot, State.slotRecord]

@[simp] theorem settleCycle_keeps (e : CycleEnding) (s : State) :
    (settleCycle e s).frames = s.frames ∧ (settleCycle e s).reports = s.reports ∧
    (settleCycle e s).commands = s.commands ∧ (settleCycle e s).config = s.config ∧
    (settleCycle e s).pins = s.pins ∧ (settleCycle e s).pending = s.pending :=
  by simp [settleCycle]

@[simp] theorem settleCycle_readers (e : CycleEnding) (s : State) :
    (settleCycle e s).activeBank = s.activeBank ∧ (settleCycle e s).shadowBank = s.shadowBank ∧
    (∀ j : Fin 32, (settleCycle e s).slotRecord j = s.slotRecord j) ∧
    (∀ j : Fin 64, (settleCycle e s).entryRecord j = s.entryRecord j) ∧
    (settleCycle e s).isAwake = s.isAwake :=
  by simp [State.activeBank, State.entryRecord, State.isAwake, State.shadowBank, State.slotRecord]

@[simp] theorem endCycle_keeps (e : CycleEnding) (s : State) :
    (endCycle e s).config = s.config ∧ (endCycle e s).pins = s.pins ∧ (endCycle e s).pending = s.pending :=
  by simp [endCycle]

@[simp] theorem endCycle_readers (e : CycleEnding) (s : State) :
    (endCycle e s).activeBank = s.activeBank ∧ (endCycle e s).shadowBank = s.shadowBank ∧
    (∀ j : Fin 32, (endCycle e s).slotRecord j = s.slotRecord j) ∧
    (∀ j : Fin 64, (endCycle e s).entryRecord j = s.entryRecord j) ∧ (endCycle e s).isAwake = s.isAwake :=
  by simp [State.activeBank, State.entryRecord, State.isAwake, State.shadowBank, State.slotRecord]

@[simp] theorem overtake_keeps (s : State) :
    (overtake s).config = s.config ∧ (overtake s).pins = s.pins ∧ (overtake s).pending = s.pending :=
  by unfold overtake; split_ifs <;> simp

@[simp] theorem overtake_readers (s : State) :
    (overtake s).activeBank = s.activeBank ∧ (overtake s).shadowBank = s.shadowBank ∧
    (∀ j : Fin 32, (overtake s).slotRecord j = s.slotRecord j) ∧
    (∀ j : Fin 64, (overtake s).entryRecord j = s.entryRecord j) ∧ (overtake s).isAwake = s.isAwake :=
  by simp [State.activeBank, State.entryRecord, State.isAwake, State.shadowBank, State.slotRecord]

@[simp] theorem checkPeriod_keeps (a : LinkState) (s : State) :
    (checkPeriod a s).frames = s.frames ∧ (checkPeriod a s).channels = s.channels ∧
    (checkPeriod a s).matcher = s.matcher ∧ (checkPeriod a s).reports = s.reports ∧
    (checkPeriod a s).commands = s.commands ∧ (checkPeriod a s).config = s.config ∧
    (checkPeriod a s).lines = s.lines ∧ (checkPeriod a s).pins = s.pins ∧
    (checkPeriod a s).pending = s.pending :=
  by unfold checkPeriod; dsimp only; split_ifs <;> simp

@[simp] theorem checkPeriod_readers (a : LinkState) (s : State) :
    (checkPeriod a s).activeBank = s.activeBank ∧ (checkPeriod a s).shadowBank = s.shadowBank ∧
    (∀ j : Fin 32, (checkPeriod a s).slotRecord j = s.slotRecord j) ∧
    (∀ j : Fin 64, (checkPeriod a s).entryRecord j = s.entryRecord j) ∧
    (∀ j : Fin 32, (checkPeriod a s).slot j = s.slot j) ∧
    (∀ j : Fin 64, (checkPeriod a s).entry j = s.entry j) ∧ (checkPeriod a s).isAwake = s.isAwake :=
  by simp [State.activeBank, State.entry, State.entryRecord, State.isAwake, State.shadowBank, State.slot, State.slotRecord]

@[simp] theorem checkNumber_keeps (a : LinkState) (n : Word) (s : State) :
    (checkNumber a n s).frames = s.frames ∧ (checkNumber a n s).channels = s.channels ∧
    (checkNumber a n s).matcher = s.matcher ∧ (checkNumber a n s).reports = s.reports ∧
    (checkNumber a n s).commands = s.commands ∧ (checkNumber a n s).config = s.config ∧
    (checkNumber a n s).lines = s.lines ∧ (checkNumber a n s).pins = s.pins ∧
    (checkNumber a n s).pending = s.pending :=
  by unfold checkNumber; dsimp only; split_ifs <;> simp

@[simp] theorem checkNumber_readers (a : LinkState) (n : Word) (s : State) :
    (checkNumber a n s).activeBank = s.activeBank ∧ (checkNumber a n s).shadowBank = s.shadowBank ∧
    (∀ j : Fin 32, (checkNumber a n s).slotRecord j = s.slotRecord j) ∧
    (∀ j : Fin 64, (checkNumber a n s).entryRecord j = s.entryRecord j) ∧
    (∀ j : Fin 32, (checkNumber a n s).slot j = s.slot j) ∧
    (∀ j : Fin 64, (checkNumber a n s).entry j = s.entry j) ∧ (checkNumber a n s).isAwake = s.isAwake :=
  by simp [State.activeBank, State.entry, State.entryRecord, State.isAwake, State.shadowBank, State.slot, State.slotRecord]

@[simp] theorem resume_keeps (n : Word) (s : State) :
    (resume n s).frames = s.frames ∧ (resume n s).channels = s.channels ∧ (resume n s).matcher = s.matcher ∧
    (resume n s).reports = s.reports ∧ (resume n s).commands = s.commands ∧ (resume n s).config = s.config ∧
    (resume n s).pins = s.pins ∧ (resume n s).pending = s.pending :=
  by unfold resume; split_ifs <;> simp

@[simp] theorem resume_readers (n : Word) (s : State) :
    (resume n s).activeBank = s.activeBank ∧ (resume n s).shadowBank = s.shadowBank ∧
    (∀ j : Fin 32, (resume n s).slotRecord j = s.slotRecord j) ∧
    (∀ j : Fin 64, (resume n s).entryRecord j = s.entryRecord j) ∧
    (∀ j : Fin 32, (resume n s).slot j = s.slot j) ∧ (∀ j : Fin 64, (resume n s).entry j = s.entry j) ∧
    (resume n s).isAwake = s.isAwake :=
  by simp [State.activeBank, State.entry, State.entryRecord, State.isAwake, State.shadowBank, State.slot, State.slotRecord]

@[simp] theorem clearIndications_keeps (s : State) :
    (clearIndications s).frames = s.frames ∧ (clearIndications s).cycle = s.cycle ∧
    (clearIndications s).matcher = s.matcher ∧ (clearIndications s).queue = s.queue ∧
    (clearIndications s).reports = s.reports ∧ (clearIndications s).commands = s.commands ∧
    (clearIndications s).config = s.config ∧ (clearIndications s).lines = s.lines ∧
    (clearIndications s).pins = s.pins ∧ (clearIndications s).pending = s.pending :=
  by simp [clearIndications]

@[simp] theorem clearIndications_readers (s : State) :
    (clearIndications s).activeBank = s.activeBank ∧ (clearIndications s).shadowBank = s.shadowBank ∧
    (∀ j : Fin 32, (clearIndications s).slotRecord j = s.slotRecord j) ∧
    (∀ j : Fin 64, (clearIndications s).entryRecord j = s.entryRecord j) ∧
    (∀ j : Fin 64, (clearIndications s).entry j = s.entry j) ∧
    (clearIndications s).cycleNumber = s.cycleNumber ∧ (clearIndications s).isAwake = s.isAwake :=
  by simp [State.activeBank, State.cycleNumber, State.entry, State.entryRecord, State.isAwake, State.shadowBank, State.slotRecord]

@[simp] theorem openLink_keeps (n : Word) (s : State) :
    (openLink n s).frames = s.frames ∧ (openLink n s).channels = s.channels ∧
    (openLink n s).matcher = s.matcher ∧ (openLink n s).queue = s.queue ∧ (openLink n s).reports = s.reports ∧
    (openLink n s).commands = s.commands ∧ (openLink n s).config = s.config ∧ (openLink n s).lines = s.lines ∧
    (openLink n s).pins = s.pins ∧ (openLink n s).pending = s.pending :=
  by simp [openLink]

@[simp] theorem openLink_readers (n : Word) (s : State) :
    (openLink n s).activeBank = s.activeBank ∧ (openLink n s).shadowBank = s.shadowBank ∧
    (∀ j : Fin 32, (openLink n s).slotRecord j = s.slotRecord j) ∧
    (∀ j : Fin 64, (openLink n s).entryRecord j = s.entryRecord j) ∧
    (∀ j : Fin 32, (openLink n s).slot j = s.slot j) ∧ (∀ j : Fin 64, (openLink n s).entry j = s.entry j) ∧
    (openLink n s).isAwake = s.isAwake :=
  by simp [State.activeBank, State.entry, State.entryRecord, State.isAwake, State.shadowBank, State.slot, State.slotRecord]

@[simp] theorem startCycle_keeps (n : Word) (s : State) :
    (startCycle n s).frames = s.frames ∧ (startCycle n s).reports = s.reports ∧
    (startCycle n s).pins = s.pins ∧ (startCycle n s).pending = s.pending :=
  by simp [startCycle]

@[simp] theorem startCycle_readers (n : Word) (s : State) :
    (startCycle n s).isAwake = s.isAwake :=
  by simp [State.isAwake]

@[simp] theorem takeOpen_keeps (o : OpenBody) (s : State) :
    (takeOpen o s).pins = s.pins ∧ (takeOpen o s).pending = s.pending :=
  by simp [takeOpen]

@[simp] theorem takeOpen_readers (o : OpenBody) (s : State) :
    (takeOpen o s).isAwake = s.isAwake :=
  by simp [State.isAwake]

@[simp] theorem countMalformedLink_keeps (s : State) :
    (countMalformedLink s).frames = s.frames ∧ (countMalformedLink s).channels = s.channels ∧
    (countMalformedLink s).matcher = s.matcher ∧ (countMalformedLink s).queue = s.queue ∧
    (countMalformedLink s).reports = s.reports ∧ (countMalformedLink s).commands = s.commands ∧
    (countMalformedLink s).config = s.config ∧ (countMalformedLink s).lines = s.lines ∧
    (countMalformedLink s).pins = s.pins ∧ (countMalformedLink s).pending = s.pending :=
  by simp [countMalformedLink]

@[simp] theorem countMalformedLink_readers (s : State) :
    (countMalformedLink s).activeBank = s.activeBank ∧ (countMalformedLink s).shadowBank = s.shadowBank ∧
    (∀ j : Fin 32, (countMalformedLink s).slotRecord j = s.slotRecord j) ∧
    (∀ j : Fin 64, (countMalformedLink s).entryRecord j = s.entryRecord j) ∧
    (∀ j : Fin 32, (countMalformedLink s).slot j = s.slot j) ∧
    (∀ j : Fin 64, (countMalformedLink s).entry j = s.entry j) ∧ (countMalformedLink s).isAwake = s.isAwake :=
  by simp [State.activeBank, State.entry, State.entryRecord, State.isAwake, State.shadowBank, State.slot, State.slotRecord]

@[simp] theorem handOpen_keeps (body : List Byte) (s : State) :
    (handOpen body s).pins = s.pins ∧ (handOpen body s).pending = s.pending :=
  by unfold handOpen; split <;> simp

@[simp] theorem handOpen_readers (body : List Byte) (s : State) :
    (handOpen body s).isAwake = s.isAwake :=
  by simp [State.isAwake]

@[simp] theorem lateClose_keeps (c : Word) (s : State) :
    (lateClose c s).frames = s.frames ∧ (lateClose c s).channels = s.channels ∧
    (lateClose c s).matcher = s.matcher ∧ (lateClose c s).reports = s.reports ∧
    (lateClose c s).commands = s.commands ∧ (lateClose c s).config = s.config ∧
    (lateClose c s).lines = s.lines ∧ (lateClose c s).pins = s.pins ∧ (lateClose c s).pending = s.pending :=
  by simp [lateClose]

@[simp] theorem lateClose_readers (c : Word) (s : State) :
    (lateClose c s).activeBank = s.activeBank ∧ (lateClose c s).shadowBank = s.shadowBank ∧
    (∀ j : Fin 32, (lateClose c s).slotRecord j = s.slotRecord j) ∧
    (∀ j : Fin 64, (lateClose c s).entryRecord j = s.entryRecord j) ∧
    (∀ j : Fin 32, (lateClose c s).slot j = s.slot j) ∧ (∀ j : Fin 64, (lateClose c s).entry j = s.entry j) ∧
    (lateClose c s).isAwake = s.isAwake :=
  by simp [State.activeBank, State.entry, State.entryRecord, State.isAwake, State.shadowBank, State.slot, State.slotRecord]

@[simp] theorem takeClose_keeps (c : Word) (bytes : List Byte) (s : State) :
    (takeClose c bytes s).config = s.config ∧ (takeClose c bytes s).pins = s.pins ∧
    (takeClose c bytes s).pending = s.pending :=
  by unfold takeClose; split_ifs <;> simp

@[simp] theorem takeClose_readers (c : Word) (bytes : List Byte) (s : State) :
    (takeClose c bytes s).activeBank = s.activeBank ∧ (takeClose c bytes s).shadowBank = s.shadowBank ∧
    (∀ j : Fin 32, (takeClose c bytes s).slotRecord j = s.slotRecord j) ∧
    (∀ j : Fin 64, (takeClose c bytes s).entryRecord j = s.entryRecord j) ∧
    (takeClose c bytes s).isAwake = s.isAwake :=
  by simp [State.activeBank, State.entryRecord, State.isAwake, State.shadowBank, State.slotRecord]

@[simp] theorem reachDeadline_keeps (s : State) :
    (reachDeadline s).frames = s.frames ∧ (reachDeadline s).channels = s.channels ∧
    (reachDeadline s).matcher = s.matcher ∧ (reachDeadline s).queue = s.queue ∧
    (reachDeadline s).reports = s.reports ∧ (reachDeadline s).commands = s.commands ∧
    (reachDeadline s).config = s.config ∧ (reachDeadline s).lines = s.lines ∧ (reachDeadline s).pins = s.pins ∧
    (reachDeadline s).pending = s.pending :=
  by simp [reachDeadline]

@[simp] theorem reachDeadline_readers (s : State) :
    (reachDeadline s).activeBank = s.activeBank ∧ (reachDeadline s).shadowBank = s.shadowBank ∧
    (∀ j : Fin 32, (reachDeadline s).slotRecord j = s.slotRecord j) ∧
    (∀ j : Fin 64, (reachDeadline s).entryRecord j = s.entryRecord j) ∧
    (∀ j : Fin 32, (reachDeadline s).slot j = s.slot j) ∧
    (∀ j : Fin 64, (reachDeadline s).entry j = s.entry j) ∧ (reachDeadline s).isAwake = s.isAwake :=
  by simp [State.activeBank, State.entry, State.entryRecord, State.isAwake, State.shadowBank, State.slot, State.slotRecord]

@[simp] theorem deadlineEnd_keeps (s : State) :
    (deadlineEnd s).config = s.config ∧ (deadlineEnd s).pins = s.pins ∧ (deadlineEnd s).pending = s.pending :=
  by simp [deadlineEnd]

@[simp] theorem deadlineEnd_readers (s : State) :
    (deadlineEnd s).activeBank = s.activeBank ∧ (deadlineEnd s).shadowBank = s.shadowBank ∧
    (∀ j : Fin 32, (deadlineEnd s).slotRecord j = s.slotRecord j) ∧
    (∀ j : Fin 64, (deadlineEnd s).entryRecord j = s.entryRecord j) ∧ (deadlineEnd s).isAwake = s.isAwake :=
  by simp [State.activeBank, State.entryRecord, State.isAwake, State.shadowBank, State.slotRecord]

@[simp] theorem stall_keeps (s : State) :
    (stall s).frames = s.frames ∧ (stall s).reports = s.reports ∧ (stall s).commands = s.commands ∧
    (stall s).config = s.config ∧ (stall s).pins = s.pins ∧ (stall s).pending = s.pending :=
  by simp [stall]

@[simp] theorem stall_readers (s : State) :
    (stall s).activeBank = s.activeBank ∧ (stall s).shadowBank = s.shadowBank ∧
    (∀ j : Fin 32, (stall s).slotRecord j = s.slotRecord j) ∧
    (∀ j : Fin 64, (stall s).entryRecord j = s.entryRecord j) ∧ (stall s).isAwake = s.isAwake :=
  by simp [State.activeBank, State.entryRecord, State.isAwake, State.shadowBank, State.slotRecord]

@[simp] theorem takeEdge_keeps (s : State) :
    (takeEdge s).frames = s.frames ∧ (takeEdge s).channels = s.channels ∧ (takeEdge s).matcher = s.matcher ∧
    (takeEdge s).reports = s.reports ∧ (takeEdge s).commands = s.commands ∧ (takeEdge s).config = s.config ∧
    (takeEdge s).lines = s.lines ∧ (takeEdge s).pins = s.pins ∧ (takeEdge s).pending = s.pending :=
  by unfold takeEdge; split <;> simp

@[simp] theorem takeEdge_readers (s : State) :
    (takeEdge s).activeBank = s.activeBank ∧ (takeEdge s).shadowBank = s.shadowBank ∧
    (∀ j : Fin 32, (takeEdge s).slotRecord j = s.slotRecord j) ∧
    (∀ j : Fin 64, (takeEdge s).entryRecord j = s.entryRecord j) ∧
    (∀ j : Fin 32, (takeEdge s).slot j = s.slot j) ∧ (∀ j : Fin 64, (takeEdge s).entry j = s.entry j) ∧
    (takeEdge s).isAwake = s.isAwake :=
  by simp [State.activeBank, State.entry, State.entryRecord, State.isAwake, State.shadowBank, State.slot, State.slotRecord]

@[simp] theorem qualifyEdge_keeps (s : State) :
    (qualifyEdge s).frames = s.frames ∧ (qualifyEdge s).channels = s.channels ∧
    (qualifyEdge s).matcher = s.matcher ∧ (qualifyEdge s).reports = s.reports ∧
    (qualifyEdge s).commands = s.commands ∧ (qualifyEdge s).config = s.config ∧
    (qualifyEdge s).lines = s.lines ∧ (qualifyEdge s).pending = s.pending :=
  by unfold qualifyEdge; dsimp only; split_ifs <;> simp

@[simp] theorem qualifyEdge_readers (s : State) :
    (qualifyEdge s).activeBank = s.activeBank ∧ (qualifyEdge s).shadowBank = s.shadowBank ∧
    (∀ j : Fin 32, (qualifyEdge s).slotRecord j = s.slotRecord j) ∧
    (∀ j : Fin 64, (qualifyEdge s).entryRecord j = s.entryRecord j) ∧
    (∀ j : Fin 32, (qualifyEdge s).slot j = s.slot j) ∧ (∀ j : Fin 64, (qualifyEdge s).entry j = s.entry j) :=
  by simp [State.activeBank, State.entry, State.entryRecord, State.shadowBank, State.slot, State.slotRecord]

@[simp] theorem findCapture_keeps (high : Bool) (s : State) :
    (findCapture high s).frames = s.frames ∧ (findCapture high s).channels = s.channels ∧
    (findCapture high s).matcher = s.matcher ∧ (findCapture high s).reports = s.reports ∧
    (findCapture high s).commands = s.commands ∧ (findCapture high s).config = s.config ∧
    (findCapture high s).lines = s.lines ∧ (findCapture high s).pending = s.pending :=
  by unfold findCapture; dsimp only; split_ifs <;> simp

@[simp] theorem findCapture_readers (high : Bool) (s : State) :
    (findCapture high s).activeBank = s.activeBank ∧ (findCapture high s).shadowBank = s.shadowBank ∧
    (∀ j : Fin 32, (findCapture high s).slotRecord j = s.slotRecord j) ∧
    (∀ j : Fin 64, (findCapture high s).entryRecord j = s.entryRecord j) ∧
    (∀ j : Fin 32, (findCapture high s).slot j = s.slot j) ∧
    (∀ j : Fin 64, (findCapture high s).entry j = s.entry j) :=
  by simp [State.activeBank, State.entry, State.entryRecord, State.shadowBank, State.slot, State.slotRecord]

@[simp] theorem takeMgmt_keeps (body : List Byte) (s : State) :
    (takeMgmt body s).frames = s.frames ∧ (takeMgmt body s).cycle = s.cycle ∧
    (takeMgmt body s).channels = s.channels ∧ (takeMgmt body s).matcher = s.matcher ∧
    (takeMgmt body s).queue = s.queue ∧ (takeMgmt body s).config = s.config ∧
    (takeMgmt body s).lines = s.lines ∧ (takeMgmt body s).pins = s.pins ∧
    (takeMgmt body s).pending = s.pending :=
  by unfold takeMgmt; split <;> (try split_ifs) <;> simp

@[simp] theorem takeMgmt_readers (body : List Byte) (s : State) :
    (takeMgmt body s).activeBank = s.activeBank ∧ (takeMgmt body s).shadowBank = s.shadowBank ∧
    (∀ j : Fin 32, (takeMgmt body s).slotRecord j = s.slotRecord j) ∧
    (∀ j : Fin 64, (takeMgmt body s).entryRecord j = s.entryRecord j) ∧
    (∀ j : Fin 32, (takeMgmt body s).slot j = s.slot j) ∧
    (∀ j : Fin 64, (takeMgmt body s).entry j = s.entry j) ∧ (takeMgmt body s).cycleNumber = s.cycleNumber ∧
    (takeMgmt body s).isAwake = s.isAwake :=
  by simp [State.activeBank, State.cycleNumber, State.entry, State.entryRecord, State.isAwake, State.shadowBank, State.slot, State.slotRecord]

@[simp] theorem handleOutbound_keeps (run : Run) (s : State) :
    ((handleOutbound run s).1).pins = s.pins ∧ ((handleOutbound run s).1).pending = s.pending :=
  by unfold handleOutbound; split <;> (try split_ifs) <;> simp

@[simp] theorem handleOutbound_readers (run : Run) (s : State) :
    ((handleOutbound run s).1).isAwake = s.isAwake :=
  by simp [State.isAwake]

@[simp] theorem handleInTurn_keeps (l : List OutboundFrame) (s : State) :
    ((handleInTurn l s).1).pins = s.pins ∧ ((handleInTurn l s).1).pending = s.pending :=
  by
  induction l generalizing s with
  | nil => simp [handleInTurn]
  | cons f l ih =>
    unfold handleInTurn
    split_ifs
    · simpa using ih s
    · simp
    · simpa using ih (handleOutbound f.run s).1

@[simp] theorem handleInTurn_readers (l : List OutboundFrame) (s : State) :
    ((handleInTurn l s).1).isAwake = s.isAwake :=
  by simp [State.isAwake]

@[simp] theorem handleWaiting_keeps (s : State) :
    (handleWaiting s).pins = s.pins ∧ (handleWaiting s).pending = s.pending :=
  by simp [handleWaiting]

@[simp] theorem handleWaiting_readers (s : State) :
    (handleWaiting s).isAwake = s.isAwake :=
  by simp [State.isAwake]

@[simp] theorem enterOutbound_keeps (run : Run) (b : Bool) (s : State) :
    ((enterOutbound run b s).1).cycle = s.cycle ∧ ((enterOutbound run b s).1).channels = s.channels ∧
    ((enterOutbound run b s).1).matcher = s.matcher ∧ ((enterOutbound run b s).1).queue = s.queue ∧
    ((enterOutbound run b s).1).reports = s.reports ∧ ((enterOutbound run b s).1).commands = s.commands ∧
    ((enterOutbound run b s).1).config = s.config ∧ ((enterOutbound run b s).1).lines = s.lines ∧
    ((enterOutbound run b s).1).pins = s.pins ∧ ((enterOutbound run b s).1).pending = s.pending :=
  by unfold enterOutbound; dsimp only; split_ifs <;> simp

@[simp] theorem enterOutbound_readers (run : Run) (b : Bool) (s : State) :
    ((enterOutbound run b s).1).activeBank = s.activeBank ∧
    ((enterOutbound run b s).1).shadowBank = s.shadowBank ∧
    (∀ j : Fin 32, ((enterOutbound run b s).1).slotRecord j = s.slotRecord j) ∧
    (∀ j : Fin 64, ((enterOutbound run b s).1).entryRecord j = s.entryRecord j) ∧
    (∀ j : Fin 32, ((enterOutbound run b s).1).slot j = s.slot j) ∧
    (∀ j : Fin 64, ((enterOutbound run b s).1).entry j = s.entry j) ∧
    ((enterOutbound run b s).1).cycleNumber = s.cycleNumber ∧
    ((enterOutbound run b s).1).isAwake = s.isAwake :=
  by simp [State.activeBank, State.cycleNumber, State.entry, State.entryRecord, State.isAwake, State.shadowBank, State.slot, State.slotRecord]

@[simp] theorem judgeRun_keeps (b : Bool) (run : Run) (s : State) :
    (judgeRun b run s).cycle = s.cycle ∧ (judgeRun b run s).channels = s.channels ∧
    (judgeRun b run s).matcher = s.matcher ∧ (judgeRun b run s).queue = s.queue ∧
    (judgeRun b run s).reports = s.reports ∧ (judgeRun b run s).commands = s.commands ∧
    (judgeRun b run s).config = s.config ∧ (judgeRun b run s).lines = s.lines ∧
    (judgeRun b run s).pins = s.pins ∧ (judgeRun b run s).pending = s.pending :=
  by unfold judgeRun; split_ifs <;> simp

@[simp] theorem judgeRun_readers (b : Bool) (run : Run) (s : State) :
    (judgeRun b run s).activeBank = s.activeBank ∧ (judgeRun b run s).shadowBank = s.shadowBank ∧
    (∀ j : Fin 32, (judgeRun b run s).slotRecord j = s.slotRecord j) ∧
    (∀ j : Fin 64, (judgeRun b run s).entryRecord j = s.entryRecord j) ∧
    (∀ j : Fin 32, (judgeRun b run s).slot j = s.slot j) ∧
    (∀ j : Fin 64, (judgeRun b run s).entry j = s.entry j) ∧ (judgeRun b run s).cycleNumber = s.cycleNumber ∧
    (judgeRun b run s).isAwake = s.isAwake :=
  by simp [State.activeBank, State.cycleNumber, State.entry, State.entryRecord, State.isAwake, State.shadowBank, State.slot, State.slotRecord]

@[simp] theorem receiveCp_keeps (run : Run) (s : State) :
    (receiveCp run s).pins = s.pins ∧ (receiveCp run s).pending = s.pending :=
  by
  unfold receiveCp
  dsimp only
  split_ifs <;> simp

@[simp] theorem receiveCp_readers (run : Run) (s : State) :
    (receiveCp run s).isAwake = s.isAwake :=
  by simp [State.isAwake]

@[simp] theorem handleInbound_keeps (f : Frame) (bytes : List Byte) (s : State) :
    (handleInbound f bytes s).config = s.config ∧ (handleInbound f bytes s).pins = s.pins ∧
    (handleInbound f bytes s).pending = s.pending :=
  by
  unfold handleInbound
  dsimp only
  split_ifs
  · simp
  · split <;> simp
  · simp

@[simp] theorem handleInbound_readers (f : Frame) (bytes : List Byte) (s : State) :
    (handleInbound f bytes s).activeBank = s.activeBank ∧ (handleInbound f bytes s).shadowBank = s.shadowBank ∧
    (∀ j : Fin 32, (handleInbound f bytes s).slotRecord j = s.slotRecord j) ∧
    (∀ j : Fin 64, (handleInbound f bytes s).entryRecord j = s.entryRecord j) ∧
    (handleInbound f bytes s).isAwake = s.isAwake :=
  by simp [State.activeBank, State.entryRecord, State.isAwake, State.shadowBank, State.slotRecord]

@[simp] theorem receiveSp_keeps (run : Run) (s : State) :
    (receiveSp run s).config = s.config ∧ (receiveSp run s).pins = s.pins ∧
    (receiveSp run s).pending = s.pending :=
  by
  unfold receiveSp
  dsimp only
  split_ifs
  · simp
  · split <;> simp
  · split <;> simp

@[simp] theorem receiveSp_readers (run : Run) (s : State) :
    (receiveSp run s).activeBank = s.activeBank ∧ (receiveSp run s).shadowBank = s.shadowBank ∧
    (∀ j : Fin 32, (receiveSp run s).slotRecord j = s.slotRecord j) ∧
    (∀ j : Fin 64, (receiveSp run s).entryRecord j = s.entryRecord j) ∧
    (receiveSp run s).isAwake = s.isAwake :=
  by simp [State.activeBank, State.entryRecord, State.isAwake, State.shadowBank, State.slotRecord]

@[simp] theorem suspendRequest_keeps (s : State) :
    (suspendRequest s).frames = s.frames ∧ (suspendRequest s).cycle = s.cycle ∧
    (suspendRequest s).channels = s.channels ∧ (suspendRequest s).matcher = s.matcher ∧
    (suspendRequest s).queue = s.queue ∧ (suspendRequest s).reports = s.reports ∧
    (suspendRequest s).config = s.config ∧ (suspendRequest s).lines = s.lines ∧
    (suspendRequest s).pins = s.pins ∧ (suspendRequest s).pending = s.pending :=
  by simp [suspendRequest]

@[simp] theorem suspendRequest_readers (s : State) :
    (suspendRequest s).activeBank = s.activeBank ∧ (suspendRequest s).shadowBank = s.shadowBank ∧
    (∀ j : Fin 32, (suspendRequest s).slotRecord j = s.slotRecord j) ∧
    (∀ j : Fin 64, (suspendRequest s).entryRecord j = s.entryRecord j) ∧
    (∀ j : Fin 32, (suspendRequest s).slot j = s.slot j) ∧
    (∀ j : Fin 64, (suspendRequest s).entry j = s.entry j) ∧ (suspendRequest s).cycleNumber = s.cycleNumber ∧
    (suspendRequest s).isAwake = s.isAwake :=
  by simp [State.activeBank, State.cycleNumber, State.entry, State.entryRecord, State.isAwake, State.shadowBank, State.slot, State.slotRecord]

@[simp] theorem cancelCommit_keeps (tag : Byte) (s : State) :
    (cancelCommit tag s).frames = s.frames ∧ (cancelCommit tag s).cycle = s.cycle ∧
    (cancelCommit tag s).channels = s.channels ∧ (cancelCommit tag s).matcher = s.matcher ∧
    (cancelCommit tag s).queue = s.queue ∧ (cancelCommit tag s).reports = s.reports ∧
    (cancelCommit tag s).lines = s.lines ∧ (cancelCommit tag s).pins = s.pins ∧
    (cancelCommit tag s).pending = s.pending :=
  by simp [cancelCommit]

@[simp] theorem cancelCommit_readers (tag : Byte) (s : State) :
    (∀ j : Fin 32, (cancelCommit tag s).slot j = s.slot j) ∧
    (∀ j : Fin 64, (cancelCommit tag s).entry j = s.entry j) ∧
    (cancelCommit tag s).cycleNumber = s.cycleNumber ∧ (cancelCommit tag s).isAwake = s.isAwake :=
  by simp [State.cycleNumber, State.entry, State.isAwake, State.slot]

@[simp] theorem acknowledgeEntry_keeps (q : Request) (i : Fin 64) (s : State) :
    (acknowledgeEntry q i s).frames = s.frames ∧ (acknowledgeEntry q i s).cycle = s.cycle ∧
    (acknowledgeEntry q i s).channels = s.channels ∧ (acknowledgeEntry q i s).reports = s.reports ∧
    (acknowledgeEntry q i s).config = s.config ∧ (acknowledgeEntry q i s).pins = s.pins ∧
    (acknowledgeEntry q i s).pending = s.pending :=
  by unfold acknowledgeEntry; dsimp only; split_ifs <;> simp

@[simp] theorem acknowledgeEntry_readers (q : Request) (i : Fin 64) (s : State) :
    (acknowledgeEntry q i s).activeBank = s.activeBank ∧ (acknowledgeEntry q i s).shadowBank = s.shadowBank ∧
    (∀ j : Fin 32, (acknowledgeEntry q i s).slotRecord j = s.slotRecord j) ∧
    (∀ j : Fin 64, (acknowledgeEntry q i s).entryRecord j = s.entryRecord j) ∧
    (∀ j : Fin 32, (acknowledgeEntry q i s).slot j = s.slot j) ∧
    (acknowledgeEntry q i s).cycleNumber = s.cycleNumber ∧ (acknowledgeEntry q i s).isAwake = s.isAwake :=
  by simp [State.activeBank, State.cycleNumber, State.entryRecord, State.isAwake, State.shadowBank, State.slot, State.slotRecord]

@[simp] theorem releaseSlot_keeps (i : Fin 32) (c : FaultCause) (s : State) :
    (releaseSlot i c s).frames = s.frames ∧ (releaseSlot i c s).cycle = s.cycle ∧
    (releaseSlot i c s).matcher = s.matcher ∧ (releaseSlot i c s).reports = s.reports ∧
    (releaseSlot i c s).commands = s.commands ∧ (releaseSlot i c s).config = s.config ∧
    (releaseSlot i c s).pins = s.pins ∧ (releaseSlot i c s).pending = s.pending :=
  by simp [releaseSlot]

@[simp] theorem releaseSlot_readers (i : Fin 32) (c : FaultCause) (s : State) :
    (releaseSlot i c s).activeBank = s.activeBank ∧ (releaseSlot i c s).shadowBank = s.shadowBank ∧
    (∀ j : Fin 32, (releaseSlot i c s).slotRecord j = s.slotRecord j) ∧
    (∀ j : Fin 64, (releaseSlot i c s).entryRecord j = s.entryRecord j) ∧
    (∀ j : Fin 64, (releaseSlot i c s).entry j = s.entry j) ∧ (releaseSlot i c s).cycleNumber = s.cycleNumber ∧
    (releaseSlot i c s).isAwake = s.isAwake :=
  by simp [State.activeBank, State.cycleNumber, State.entry, State.entryRecord, State.isAwake, State.shadowBank, State.slotRecord]

@[simp] theorem advanceTimers_keeps (s : State) :
    (advanceTimers s).channels = s.channels ∧ (advanceTimers s).matcher = s.matcher ∧
    (advanceTimers s).queue = s.queue ∧ (advanceTimers s).reports = s.reports ∧
    (advanceTimers s).config = s.config ∧ (advanceTimers s).lines = s.lines ∧
    (advanceTimers s).pending = s.pending :=
  by simp [advanceTimers]

@[simp] theorem advanceTimers_readers (s : State) :
    (advanceTimers s).activeBank = s.activeBank ∧ (advanceTimers s).shadowBank = s.shadowBank ∧
    (∀ j : Fin 32, (advanceTimers s).slotRecord j = s.slotRecord j) ∧
    (∀ j : Fin 64, (advanceTimers s).entryRecord j = s.entryRecord j) ∧
    (∀ j : Fin 32, (advanceTimers s).slot j = s.slot j) ∧
    (∀ j : Fin 64, (advanceTimers s).entry j = s.entry j) :=
  by simp [State.activeBank, State.entry, State.entryRecord, State.shadowBank, State.slot, State.slotRecord]

@[simp] theorem runReadEntry_keeps (q : Request) (s : State) :
    (runReadEntry q s).frames = s.frames ∧ (runReadEntry q s).cycle = s.cycle ∧ (runReadEntry q s).channels =
    s.channels ∧ (runReadEntry q s).matcher = s.matcher ∧ (runReadEntry q s).queue = s.queue ∧ (runReadEntry q
    s).reports = s.reports ∧ (runReadEntry q s).config = s.config ∧ (runReadEntry q s).lines = s.lines ∧
    (runReadEntry q s).pins = s.pins ∧ (runReadEntry q s).pending = s.pending := by
  unfold runReadEntry; (repeat' split) <;> simp

@[simp] theorem runWriteShadow_keeps (q : Request) (s : State) :
    (runWriteShadow q s).frames = s.frames ∧ (runWriteShadow q s).cycle = s.cycle ∧ (runWriteShadow q s).channels
    = s.channels ∧ (runWriteShadow q s).matcher = s.matcher ∧ (runWriteShadow q s).queue = s.queue ∧
    (runWriteShadow q s).reports = s.reports ∧ (runWriteShadow q s).lines = s.lines ∧ (runWriteShadow q s).pins =
    s.pins ∧ (runWriteShadow q s).pending = s.pending := by
  unfold runWriteShadow; (repeat' split) <;> simp

@[simp] theorem runSyncShadow_keeps (q : Request) (s : State) :
    (runSyncShadow q s).frames = s.frames ∧ (runSyncShadow q s).cycle = s.cycle ∧ (runSyncShadow q s).channels =
    s.channels ∧ (runSyncShadow q s).matcher = s.matcher ∧ (runSyncShadow q s).queue = s.queue ∧ (runSyncShadow q
    s).reports = s.reports ∧ (runSyncShadow q s).lines = s.lines ∧ (runSyncShadow q s).pins = s.pins ∧
    (runSyncShadow q s).pending = s.pending := by
  unfold runSyncShadow; (repeat' split) <;> simp

@[simp] theorem runCommit_keeps (q : Request) (s : State) :
    (runCommit q s).frames = s.frames ∧ (runCommit q s).cycle = s.cycle ∧ (runCommit q s).channels = s.channels ∧
    (runCommit q s).matcher = s.matcher ∧ (runCommit q s).queue = s.queue ∧ (runCommit q s).reports = s.reports ∧
    (runCommit q s).lines = s.lines ∧ (runCommit q s).pins = s.pins ∧ (runCommit q s).pending = s.pending := by
  unfold runCommit; (repeat' split) <;> simp

@[simp] theorem runAbortCommit_keeps (q : Request) (s : State) :
    (runAbortCommit q s).frames = s.frames ∧ (runAbortCommit q s).cycle = s.cycle ∧ (runAbortCommit q s).channels
    = s.channels ∧ (runAbortCommit q s).matcher = s.matcher ∧ (runAbortCommit q s).queue = s.queue ∧
    (runAbortCommit q s).reports = s.reports ∧ (runAbortCommit q s).lines = s.lines ∧ (runAbortCommit q s).pins =
    s.pins ∧ (runAbortCommit q s).pending = s.pending := by
  unfold runAbortCommit; (repeat' split) <;> simp

@[simp] theorem runSetMode_keeps (q : Request) (s : State) :
    (runSetMode q s).frames = s.frames ∧ (runSetMode q s).cycle = s.cycle ∧ (runSetMode q s).channels = s.channels
    ∧ (runSetMode q s).matcher = s.matcher ∧ (runSetMode q s).queue = s.queue ∧ (runSetMode q s).reports =
    s.reports ∧ (runSetMode q s).lines = s.lines ∧ (runSetMode q s).pins = s.pins ∧ (runSetMode q s).pending =
    s.pending := by
  unfold runSetMode; (repeat' split) <;> simp

@[simp] theorem runAckEvent_keeps (q : Request) (s : State) :
    (runAckEvent q s).frames = s.frames ∧ (runAckEvent q s).cycle = s.cycle ∧ (runAckEvent q s).channels =
    s.channels ∧ (runAckEvent q s).reports = s.reports ∧ (runAckEvent q s).config = s.config ∧ (runAckEvent q
    s).pins = s.pins ∧ (runAckEvent q s).pending = s.pending := by
  unfold runAckEvent; (repeat' split) <;> simp

@[simp] theorem runAckChannel_keeps (q : Request) (s : State) :
    (runAckChannel q s).frames = s.frames ∧ (runAckChannel q s).cycle = s.cycle ∧ (runAckChannel q s).matcher =
    s.matcher ∧ (runAckChannel q s).reports = s.reports ∧ (runAckChannel q s).config = s.config ∧ (runAckChannel q
    s).pins = s.pins ∧ (runAckChannel q s).pending = s.pending := by
  unfold runAckChannel; (repeat' split) <;> simp

@[simp] theorem runReadChannel_keeps (q : Request) (s : State) :
    (runReadChannel q s).frames = s.frames ∧ (runReadChannel q s).cycle = s.cycle ∧ (runReadChannel q s).channels
    = s.channels ∧ (runReadChannel q s).matcher = s.matcher ∧ (runReadChannel q s).queue = s.queue ∧
    (runReadChannel q s).reports = s.reports ∧ (runReadChannel q s).config = s.config ∧ (runReadChannel q s).lines
    = s.lines ∧ (runReadChannel q s).pins = s.pins ∧ (runReadChannel q s).pending = s.pending := by
  unfold runReadChannel; (repeat' split) <;> simp

@[simp] theorem runReadStatus_keeps (q : Request) (s : State) :
    (runReadStatus q s).frames = s.frames ∧ (runReadStatus q s).cycle = s.cycle ∧ (runReadStatus q s).channels =
    s.channels ∧ (runReadStatus q s).matcher = s.matcher ∧ (runReadStatus q s).queue = s.queue ∧ (runReadStatus q
    s).reports = s.reports ∧ (runReadStatus q s).config = s.config ∧ (runReadStatus q s).lines = s.lines ∧
    (runReadStatus q s).pins = s.pins ∧ (runReadStatus q s).pending = s.pending := by
  simp [runReadStatus]

@[simp] theorem runUnknown_keeps (q : Request) (s : State) :
    (runUnknown q s).frames = s.frames ∧ (runUnknown q s).cycle = s.cycle ∧ (runUnknown q s).channels = s.channels
    ∧ (runUnknown q s).matcher = s.matcher ∧ (runUnknown q s).queue = s.queue ∧ (runUnknown q s).reports =
    s.reports ∧ (runUnknown q s).config = s.config ∧ (runUnknown q s).lines = s.lines ∧ (runUnknown q s).pins =
    s.pins ∧ (runUnknown q s).pending = s.pending := by
  simp [runUnknown]

@[simp] theorem runClearCounters_keeps (q : Request) (s : State) :
    (runClearCounters q s).matcher = s.matcher ∧ (runClearCounters q s).config = s.config ∧
    (runClearCounters q s).lines = s.lines ∧ (runClearCounters q s).pins = s.pins ∧
    (runClearCounters q s).pending = s.pending := by
  simp [runClearCounters, zeroCounters]

@[simp] theorem runRestart_keeps (q : Request) (s : State) :
    (runRestart q s).pins = s.pins ∧ (runRestart q s).pending = s.pending := by
  simp [runRestart, restartBlocks]

@[simp] theorem runReadEntry_readers (q : Request) (s : State) :
    (runReadEntry q s).activeBank = s.activeBank ∧ (runReadEntry q s).shadowBank = s.shadowBank ∧ (∀ j : Fin 32,
    (runReadEntry q s).slotRecord j = s.slotRecord j) ∧ (∀ j : Fin 64, (runReadEntry q s).entryRecord j =
    s.entryRecord j) ∧ (∀ j : Fin 32, (runReadEntry q s).slot j = s.slot j) ∧ (∀ j : Fin 64, (runReadEntry q
    s).entry j = s.entry j) ∧ (runReadEntry q s).cycleNumber = s.cycleNumber ∧ (runReadEntry q s).isAwake =
    s.isAwake := by
  simp [State.activeBank, State.cycleNumber, State.entry, State.entryRecord, State.isAwake, State.shadowBank, State.slot, State.slotRecord]

@[simp] theorem runWriteShadow_readers (q : Request) (s : State) :
    (∀ j : Fin 32, (runWriteShadow q s).slot j = s.slot j) ∧ (∀ j : Fin 64, (runWriteShadow q s).entry j = s.entry
    j) ∧ (runWriteShadow q s).cycleNumber = s.cycleNumber ∧ (runWriteShadow q s).isAwake = s.isAwake := by
  simp [State.cycleNumber, State.entry, State.isAwake, State.slot]

@[simp] theorem runSyncShadow_readers (q : Request) (s : State) :
    (∀ j : Fin 32, (runSyncShadow q s).slot j = s.slot j) ∧ (∀ j : Fin 64, (runSyncShadow q s).entry j = s.entry
    j) ∧ (runSyncShadow q s).cycleNumber = s.cycleNumber ∧ (runSyncShadow q s).isAwake = s.isAwake := by
  simp [State.cycleNumber, State.entry, State.isAwake, State.slot]

@[simp] theorem runCommit_readers (q : Request) (s : State) :
    (∀ j : Fin 32, (runCommit q s).slot j = s.slot j) ∧ (∀ j : Fin 64, (runCommit q s).entry j = s.entry j) ∧
    (runCommit q s).cycleNumber = s.cycleNumber ∧ (runCommit q s).isAwake = s.isAwake := by
  simp [State.cycleNumber, State.entry, State.isAwake, State.slot]

@[simp] theorem runAbortCommit_readers (q : Request) (s : State) :
    (∀ j : Fin 32, (runAbortCommit q s).slot j = s.slot j) ∧ (∀ j : Fin 64, (runAbortCommit q s).entry j = s.entry
    j) ∧ (runAbortCommit q s).cycleNumber = s.cycleNumber ∧ (runAbortCommit q s).isAwake = s.isAwake := by
  simp [State.cycleNumber, State.entry, State.isAwake, State.slot]

@[simp] theorem runSetMode_readers (q : Request) (s : State) :
    (∀ j : Fin 32, (runSetMode q s).slot j = s.slot j) ∧ (∀ j : Fin 64, (runSetMode q s).entry j = s.entry j) ∧
    (runSetMode q s).cycleNumber = s.cycleNumber ∧ (runSetMode q s).isAwake = s.isAwake := by
  simp [State.cycleNumber, State.entry, State.isAwake, State.slot]

@[simp] theorem runAckEvent_readers (q : Request) (s : State) :
    (runAckEvent q s).activeBank = s.activeBank ∧ (runAckEvent q s).shadowBank = s.shadowBank ∧ (∀ j : Fin 32,
    (runAckEvent q s).slotRecord j = s.slotRecord j) ∧ (∀ j : Fin 64, (runAckEvent q s).entryRecord j =
    s.entryRecord j) ∧ (∀ j : Fin 32, (runAckEvent q s).slot j = s.slot j) ∧ (runAckEvent q s).cycleNumber =
    s.cycleNumber ∧ (runAckEvent q s).isAwake = s.isAwake := by
  simp [State.activeBank, State.cycleNumber, State.entryRecord, State.isAwake, State.shadowBank, State.slot, State.slotRecord]

@[simp] theorem runAckChannel_readers (q : Request) (s : State) :
    (runAckChannel q s).activeBank = s.activeBank ∧ (runAckChannel q s).shadowBank = s.shadowBank ∧ (∀ j : Fin 32,
    (runAckChannel q s).slotRecord j = s.slotRecord j) ∧ (∀ j : Fin 64, (runAckChannel q s).entryRecord j =
    s.entryRecord j) ∧ (∀ j : Fin 64, (runAckChannel q s).entry j = s.entry j) ∧ (runAckChannel q s).cycleNumber =
    s.cycleNumber ∧ (runAckChannel q s).isAwake = s.isAwake := by
  simp [State.activeBank, State.cycleNumber, State.entry, State.entryRecord, State.isAwake, State.shadowBank, State.slotRecord]

@[simp] theorem runReadChannel_readers (q : Request) (s : State) :
    (runReadChannel q s).activeBank = s.activeBank ∧ (runReadChannel q s).shadowBank = s.shadowBank ∧ (∀ j : Fin
    32, (runReadChannel q s).slotRecord j = s.slotRecord j) ∧ (∀ j : Fin 64, (runReadChannel q s).entryRecord j =
    s.entryRecord j) ∧ (∀ j : Fin 32, (runReadChannel q s).slot j = s.slot j) ∧ (∀ j : Fin 64, (runReadChannel q
    s).entry j = s.entry j) ∧ (runReadChannel q s).cycleNumber = s.cycleNumber ∧ (runReadChannel q s).isAwake =
    s.isAwake := by
  simp [State.activeBank, State.cycleNumber, State.entry, State.entryRecord, State.isAwake, State.shadowBank, State.slot, State.slotRecord]

@[simp] theorem runReadStatus_readers (q : Request) (s : State) :
    (runReadStatus q s).activeBank = s.activeBank ∧ (runReadStatus q s).shadowBank = s.shadowBank ∧ (∀ j : Fin 32,
    (runReadStatus q s).slotRecord j = s.slotRecord j) ∧ (∀ j : Fin 64, (runReadStatus q s).entryRecord j =
    s.entryRecord j) ∧ (∀ j : Fin 32, (runReadStatus q s).slot j = s.slot j) ∧ (∀ j : Fin 64, (runReadStatus q
    s).entry j = s.entry j) ∧ (runReadStatus q s).cycleNumber = s.cycleNumber ∧ (runReadStatus q s).isAwake =
    s.isAwake := by
  simp [State.activeBank, State.cycleNumber, State.entry, State.entryRecord, State.isAwake, State.shadowBank, State.slot, State.slotRecord]

@[simp] theorem runUnknown_readers (q : Request) (s : State) :
    (runUnknown q s).activeBank = s.activeBank ∧ (runUnknown q s).shadowBank = s.shadowBank ∧ (∀ j : Fin 32,
    (runUnknown q s).slotRecord j = s.slotRecord j) ∧ (∀ j : Fin 64, (runUnknown q s).entryRecord j =
    s.entryRecord j) ∧ (∀ j : Fin 32, (runUnknown q s).slot j = s.slot j) ∧ (∀ j : Fin 64, (runUnknown q s).entry
    j = s.entry j) ∧ (runUnknown q s).cycleNumber = s.cycleNumber ∧ (runUnknown q s).isAwake = s.isAwake := by
  simp [State.activeBank, State.cycleNumber, State.entry, State.entryRecord, State.isAwake, State.shadowBank, State.slot, State.slotRecord]

end Sys2Proof.Machine
end

