-- ==== Sys2Proof/Laws/Values.lean ====
section
/-! SUPPORT. What the shared operations leave in what they change: the slots, the entries, the queue, the banks, the lines. -/

namespace Sys2Proof.Machine

/-! ## One slot, one entry -/

@[simp] theorem State.withSlot_slot (s : State) (i j : Fin 32) (d : SlotState) :
    (s.withSlot i d).slot j = if j = i then d else s.slot j := by
  simp only [State.slot, State.withSlot, State.withChannels_channels]
  split_ifs with h
  · subst h; simp
  · exact Vector.getElem_set_ne _ _ (by simpa [Fin.ext_iff, eq_comm] using h)

@[simp] theorem State.withSlots_slot (s : State) (f : Fin 32 → SlotState) (j : Fin 32) :
    (s.withSlots f).slot j = f j := by
  simp [State.slot, State.withSlots]

@[simp] theorem State.withEntry_entry (s : State) (i j : Fin 64) (e : EntryState) :
    (s.withEntry i e).entry j = if j = i then e else s.entry j := by
  simp only [State.entry, State.withEntry, State.withMatcher_matcher]
  split_ifs with h
  · subst h; simp
  · exact Vector.getElem_set_ne _ _ (by simpa [Fin.ext_iff, eq_comm] using h)

@[simp] theorem State.withEntries_entry (s : State) (f : Fin 64 → EntryState) (j : Fin 64) :
    (s.withEntries f).entry j = f j := by
  simp [State.entry, State.withEntries]

/-- Two states whose slots are all the same have the same slots. -/
theorem slots_eq_of_slot {s t : State} (h : ∀ i, t.slot i = s.slot i) : t.channels.slots = s.channels.slots := by
  apply Vector.ext
  intro i hi
  exact h ⟨i, hi⟩

/-- Two states whose entries are all the same have the same matcher. -/
theorem matcher_eq_of_entry {s t : State} (h : ∀ i, t.entry i = s.entry i) : t.matcher = s.matcher := by
  rcases hs : s.matcher with ⟨a⟩
  rcases ht : t.matcher with ⟨b⟩
  congr 1
  apply Vector.ext
  intro i hi
  have := h ⟨i, hi⟩
  simpa [State.entry, hs, ht] using this

@[simp] theorem State.withSlot_counters (s : State) (i : Fin 32) (d : SlotState) :
    (s.withSlot i d).channels.counters = s.channels.counters := rfl

@[simp] theorem State.withSlots_counters (s : State) (f : Fin 32 → SlotState) :
    (s.withSlots f).channels.counters = s.channels.counters := by
  simp [State.withSlots]

/-! ## Banks -/

/-- The partner of a slot is the one slot with which it is a partner pair of the active bank. -/
theorem partnerOfSlot_eq_some (s : State) (i j : Fin 32) :
    partnerOfSlot s.activeBank i = some j ↔ s.arePartners i j := by
  simp only [partnerOfSlot, State.arePartners, State.slotRecord]
  split_ifs with hi
  · split
    · rename_i k hk
      split_ifs with h
      · rw [Option.some.injEq]
        refine ⟨?_, fun ⟨_, _, _, e, _⟩ => Option.some.inj (hk.symm.trans e)⟩
        rintro rfl
        exact ⟨h.1.symm, hi, h.2.1, hk, h.2.2⟩
      · refine ⟨nofun, fun ⟨ne, _, cj, e, pj⟩ => absurd ?_ h⟩
        obtain rfl := Option.some.inj (hk.symm.trans e)
        exact ⟨ne.symm, cj, pj⟩
    · rename_i hk
      exact ⟨nofun, fun ⟨_, _, _, e, _⟩ => nomatch hk.symm.trans e⟩
  · exact ⟨nofun, fun h => absurd h.2.1 hi⟩

/-- A slot has no partner exactly when it is in no partner pair of the active bank. -/
theorem partnerOfSlot_eq_none (s : State) (i : Fin 32) :
    partnerOfSlot s.activeBank i = none ↔ ∀ j, ¬s.arePartners i j := by
  simp [Option.eq_none_iff_forall_ne_some, partnerOfSlot_eq_some]

@[simp] theorem BankName.other_other (b : BankName) : b.other.other = b := by cases b <;> rfl

@[simp] theorem BankName.other_ne (b : BankName) : b.other ≠ b := by cases b <;> simp [BankName.other]

@[simp] theorem State.withShadowBank_activeBank (s : State) (b : Bank) :
    (s.withShadowBank b).activeBank = s.activeBank := by
  simp only [State.activeBank, State.withShadowBank, State.withConfig_config]
  cases h : s.config.active <;> simp [ConfigController.withBank, ConfigController.bank, BankName.other, h]

@[simp] theorem State.withShadowBank_shadowBank (s : State) (b : Bank) :
    (s.withShadowBank b).shadowBank = b := by
  simp only [State.shadowBank, State.withShadowBank, State.withConfig_config]
  cases h : s.config.active <;> simp [ConfigController.withBank, ConfigController.bank, BankName.other, h]

@[simp] theorem ConfigController.withBank_keeps (c : ConfigController) (n : BankName) (b : Bank) :
    (c.withBank n b).active = c.active ∧ (c.withBank n b).generation = c.generation ∧
    (c.withBank n b).pendingCommit = c.pendingCommit ∧ (c.withBank n b).lastCommit = c.lastCommit ∧
    (c.withBank n b).mode = c.mode ∧ (c.withBank n b).pendingMode = c.pendingMode := by
  cases n <;> simp [ConfigController.withBank]

@[simp] theorem State.withShadowBank_config (s : State) (b : Bank) :
    (s.withShadowBank b).config = s.config.withBank s.config.active.other b := rfl

@[simp] theorem State.withShadowBank_records (s : State) (b : Bank) :
    (∀ i, (s.withShadowBank b).slotRecord i = s.slotRecord i) ∧
    (∀ i, (s.withShadowBank b).entryRecord i = s.entryRecord i) := by
  simp [State.slotRecord, State.entryRecord]

/-- The active bank reads the banks and the choice of the active one alone. -/
theorem State.activeBank_congr {s t : State} (ha : t.config.bankA = s.config.bankA)
    (hb : t.config.bankB = s.config.bankB) (hc : t.config.active = s.config.active) :
    t.activeBank = s.activeBank ∧ t.shadowBank = s.shadowBank := by
  unfold State.activeBank State.shadowBank
  rw [hc]
  cases s.config.active <;> simp [ConfigController.bank, BankName.other, ha, hb]

/-! ## The Event Queue -/

@[simp] theorem post_queue (p : Fin 4) (d : Detail) (s : State) :
    (post p d s).queue = s.queue.post s.cycleNumber p d := rfl

/-- A list of postings is made one behind the other, each with the same cycle number. -/
@[simp] theorem postAll_queue (l : List (Fin 4 × Detail)) (s : State) :
    (postAll l s).queue = l.foldl (fun q r => q.post s.cycleNumber r.1 r.2) s.queue := by
  induction l generalizing s with
  | nil => rfl
  | cons r l ih =>
    have h := ih (post r.1 r.2 s)
    simpa [postAll] using h

/-- A list of postings, as the statements on records name it. -/
theorem postAll_postEach (l : List (Fin 4 × Detail)) (s : State) :
    (postAll l s).queue = s.queue.postEach s.cycleNumber l := postAll_queue l s

@[simp] theorem EventQueue.postEach_nil (q : EventQueue) (c : Word) : q.postEach c [] = q := rfl

@[simp] theorem EventQueue.postEach_cons (q : EventQueue) (c : Word) (r : Fin 4 × Detail) (l : List (Fin 4 × Detail)) :
    q.postEach c (r :: l) = (q.post c r.1 r.2).postEach c l := rfl

/-- Records posted behind others, in one list. -/
theorem EventQueue.postEach_append (q : EventQueue) (c : Word) (l k : List (Fin 4 × Detail)) :
    q.postEach c (l ++ k) = (q.postEach c l).postEach c k := List.foldl_append

/-! ## The pins -/

@[simp] theorem Pins.sampleReset_keeps (p : Pins) :
    p.sampleReset.phase = p.phase ∧ p.sampleReset.initialisationTicks = p.initialisationTicks ∧
    p.sampleReset.strap = p.strap ∧ p.sampleReset.qualifier = p.qualifier ∧ p.sampleReset.capture = p.capture ∧
    p.sampleReset.captureSampled = p.captureSampled := ⟨rfl, rfl, rfl, rfl, rfl, rfl⟩

@[simp] theorem Pins.sampleCapture_keeps (p : Pins) :
    p.sampleCapture.phase = p.phase ∧ p.sampleCapture.initialisationTicks = p.initialisationTicks ∧
    p.sampleCapture.strap = p.strap ∧ p.sampleCapture.capture = p.capture ∧ p.sampleCapture.resetLow = p.resetLow :=
  ⟨rfl, rfl, rfl, rfl, rfl⟩

/-- A tick of the pins, field by field. -/
@[simp] theorem Pins.tick_fields (p : Pins) :
    p.tick.phase = p.phase ∧ p.tick.strap = p.strap ∧ p.tick.capture = p.capture ∧ p.tick.captureSampled = false ∧
    p.tick.qualifier = (if p.captureSampled then p.qualifier else p.qualifier.sample p.capture) ∧
    p.tick.resetLow = p.sampleReset.resetLow ∧
    p.tick.initialisationTicks =
      (if p.phase = .initialising then p.initialisationTicks + 1 else p.initialisationTicks) := by
  unfold Pins.tick
  split
  · simp [Pins.sampleReset]
  · simp [Pins.sampleReset, Pins.sampleCapture]; rfl

@[simp] theorem Pins.afterReset_fields (strap : Strap) (p : Pins) :
    (p.afterReset strap).phase = .initialising ∧ (p.afterReset strap).strap = strap ∧
    (p.afterReset strap).qualifier = .high ∧ (p.afterReset strap).initialisationTicks = 0 ∧
    (p.afterReset strap).capture = p.capture ∧ (p.afterReset strap).resetLow = p.resetLow :=
  ⟨rfl, rfl, rfl, rfl, rfl, rfl⟩

/-- A sample of CAPTURE qualifies an edge only when it is high, and then takes the qualifier to HIGH (R195). -/
theorem Qualifier.sample_of_qualifies (q : Qualifier) (high : Bool) (h : q.qualifies high = true) :
    high = true ∧ q.sample high = .high := by
  cases q <;> cases high <;> simp_all [Qualifier.qualifies, Qualifier.sample]

/-! ## Slots and entries after the operations of chapters 2 and 3 -/

@[simp] theorem changeSlots_slot (after : Fin 32 → SlotState) (l : List (Fin 4 × Detail)) (s : State) (i : Fin 32) :
    (changeSlots after l s).slot i = after i := by
  simp [changeSlots]

@[simp] theorem changeSlots_counters (after : Fin 32 → SlotState) (l : List (Fin 4 × Detail)) (s : State) :
    (changeSlots after l s).channels.counters = s.channels.counters := by
  simp [changeSlots]

/-- The entries after slots have left tracking (R65). -/
@[simp] theorem leaveTracking_entry (left : Fin 32 → Bool) (s : State) (j : Fin 64) :
    (leaveTracking left s).entry j =
      if (s.entryRecord j).used && left (s.entryRecord j).slot then leaveEntry (s.entry j) else s.entry j := by
  simp [leaveTracking]

@[simp] theorem changeSlots_entry (after : Fin 32 → SlotState) (l : List (Fin 4 × Detail)) (s : State) (j : Fin 64) :
    (changeSlots after l s).entry j =
      if (s.entryRecord j).used && leavers s.slot after (s.entryRecord j).slot then leaveEntry (s.entry j)
      else s.entry j := by
  simp [changeSlots]

/-- The entries after a delivery (R57). -/
@[simp] theorem deliver_entry (i : Fin 32) (p : Word) (s : State) (j : Fin 64) :
    (deliver i p s).entry j =
      if (s.entryRecord j).used && decide ((s.entryRecord j).slot = i) then
        evaluateEntry (s.entryRecord j) p (s.entry j)
      else s.entry j := by
  simp [deliver]

/-- The records of the entries whose slots leave tracking: those of their latch transitions (R65, R67). -/
theorem leaveTracking_queue (left : Fin 32 → Bool) (s : State) (p : Word) :
    (leaveTracking left s).queue =
      s.queue.postEach s.cycleNumber (s.transitions (leaveTracking left s) p true) := by
  have h : (leaveTracking left s).queue = s.queue.postEach s.cycleNumber ((List.finRange 64).flatMap fun i =>
      if (s.entryRecord i).used && left (s.entryRecord i).slot then leaveRecord (s.entryRecord i) i (s.entry i) else []) := by
    simp [leaveTracking, EventQueue.postEach, State.cycleNumber]
  rw [h]
  congr 1
  unfold State.transitions
  congr 1
  funext i
  rw [leaveTracking_entry]
  split_ifs
  · rcases s.entry i with ⟨c, l⟩
    cases l <;> simp [leaveEntry, leaveRecord, EntryRecord.transition]
  · cases (s.entry i).latch <;> rfl

/-- The records of a delivery: those of the latch transitions it makes (R57, R73). -/
theorem deliver_queue (slot : Fin 32) (p : Word) (s : State) :
    (deliver slot p s).queue = s.queue.postEach s.cycleNumber (s.transitions (deliver slot p s) p false) := by
  have h : (deliver slot p s).queue = s.queue.postEach s.cycleNumber ((List.finRange 64).flatMap fun i =>
      if (s.entryRecord i).used && decide ((s.entryRecord i).slot = slot) then
        evaluationRecord (s.entryRecord i) i p (s.entry i).latch
          (evaluateEntry (s.entryRecord i) p (s.entry i)).latch else []) := by
    simp only [deliver, postAll_queue, EventQueue.postEach]
    have he : ∀ f : Fin 64 → EntryState,
        (s.withEntries f).cycleNumber = s.cycleNumber ∧ (s.withEntries f).queue = s.queue := by
      simp [State.cycleNumber]
    rw [(he _).1, (he _).2]
    congr 2
    funext i
    split_ifs with hc
    · rfl
    · rfl
  rw [h]
  congr 1
  unfold State.transitions
  congr 1
  funext i
  rw [deliver_entry]
  split_ifs
  · generalize s.entryRecord i = r
    rcases s.entry i with ⟨c, l⟩
    simp only [evaluateEntry]
    generalize r.evaluate c p = c'
    cases hm : r.mode <;> cases l <;> cases c <;> cases c' <;>
      simp [nextLatch, evaluationRecord, EntryRecord.transition]
  · cases (s.entry i).latch <;> rfl

/-- The records of a happening over all slots: the HEALTH records given, then those of the entries that left tracking (R67). -/
theorem changeSlots_queue (after : Fin 32 → SlotState) (l : List (Fin 4 × Detail)) (s : State) (p : Word) :
    (changeSlots after l s).queue =
      s.queue.postEach s.cycleNumber (l ++ s.transitions (changeSlots after l s) p true) := by
  unfold changeSlots
  rw [leaveTracking_queue _ _ p, postAll_postEach, EventQueue.postEach_append]
  have h : (postAll l (s.withSlots after)).cycleNumber = s.cycleNumber := by simp [State.cycleNumber]
  rw [h]
  have hr : ∀ j, (postAll l (s.withSlots after)).entryRecord j = s.entryRecord j := by simp
  have he : ∀ j, (postAll l (s.withSlots after)).entry j = s.entry j := by simp
  simp only [State.transitions, hr, he]
  have hq : (s.withSlots after).queue = s.queue := by simp
  have hn : (s.withSlots after).cycleNumber = s.cycleNumber := by simp [State.cycleNumber]
  rw [hq, hn]
@[simp] theorem evaluateCycleEnd_slot (s : State) (i : Fin 32) :
    (evaluateCycleEnd s).slot i =
      partnerStep s.activeBank (fun j => missingStep s.activeBank.slots[j] (s.slot j)) i := by
  simp [evaluateCycleEnd]

@[simp] theorem stallSlots_slot (s : State) (i : Fin 32) : (stallSlots s).slot i = stallStep (s.slot i) := by
  simp [stallSlots]

@[simp] theorem evaluateCycleEnd_counters (s : State) :
    (evaluateCycleEnd s).channels.counters = s.channels.counters := by
  simp [evaluateCycleEnd]

@[simp] theorem stallSlots_counters (s : State) : (stallSlots s).channels.counters = s.channels.counters := by
  simp [stallSlots]

/-- The slot state a valid SAMPLE leaves (R14, R23, R26). -/
def sampledSlot (s : State) (i : Fin 32) (m : Sample) : SlotState :=
  let r := s.slotRecord i
  let counted := { s.slot i with validTotal := (s.slot i).validTotal + 1, indication := true }
  if (s.slot i).health.isLatchedFault then counted
  else judge r (correctedPosition r m) m.cycle (envelopeMetric (correctedA r m) (correctedB r m)) counted

@[simp] theorem takeValid_slot (i j : Fin 32) (m : Sample) (s : State) :
    (takeValid i m s).slot j = if j = i then sampledSlot s i m else s.slot j := by
  unfold takeValid sampledSlot
  dsimp only
  split_ifs <;> simp_all

@[simp] theorem takeValid_counters (i : Fin 32) (m : Sample) (s : State) :
    (takeValid i m s).channels.counters = s.channels.counters := by
  unfold takeValid
  dsimp only
  split_ifs <;> simp

/-- The entries a valid SAMPLE leaves: those of its slot are evaluated when the slot is left in the pair, or leave tracking
when its judgement takes it out of the pair; the others stay (R57, R65). -/
theorem takeValid_entry (i : Fin 32) (j : Fin 64) (m : Sample) (s : State) :
    (takeValid i m s).entry j =
      if (s.entryRecord j).used = true ∧ (s.entryRecord j).slot = i ∧ (s.slot i).health.isLatchedFault = false then
        if (sampledSlot s i m).health.inPair then
          evaluateEntry (s.entryRecord j) (correctedPosition (s.slotRecord i) m) (s.entry j)
        else if (entryStep (s.slotRecord i) (s.slot i)).health.inPair then leaveEntry (s.entry j)
        else s.entry j
      else s.entry j := by
  have he : (entryStep (s.slotRecord i)
      { s.slot i with validTotal := (s.slot i).validTotal + 1, indication := true }).health =
        (entryStep (s.slotRecord i) (s.slot i)).health := by
    unfold entryStep
    dsimp only
    split_ifs <;> rfl
  unfold takeValid sampledSlot
  dsimp only
  rw [he]
  split_ifs <;> simp_all

/-! ## A swap and a mode change -/

@[simp] theorem carryOver_slot (old : Bank) (s : State) (i : Fin 32) :
    (carryOver old s).slot i = carrySlot old.slots[i] s.activeBank.slots[i] (s.slot i) := by
  simp [carryOver]

@[simp] theorem carryOver_entry (old : Bank) (s : State) (i : Fin 64) :
    (carryOver old s).entry i = carryEntry old.entries[i] s.activeBank.entries[i]
      (leavers s.slot fun j => carrySlot old.slots[j] s.activeBank.slots[j] (s.slot j)) (s.entry i) := by
  simp [carryOver]

@[simp] theorem enterMonitor_slot (s : State) (i : Fin 32) :
    (enterMonitor s).slot i = { (s.slot i).restartIn
      (if (s.slotRecord i).configured then .acquiring else .unused) with indication := false } := by
  simp only [enterMonitor, State.withSlots_slot]
  rfl

@[simp] theorem enterMonitor_config (s : State) :
    (enterMonitor s).config = { s.config with mode := .monitor } := by
  simp [enterMonitor]

@[simp] theorem enterStandby_slot (s : State) (i : Fin 32) :
    (enterStandby s).slot i = { (s.slot i).restartIn .unused with indication := false } := by
  simp [enterStandby]

@[simp] theorem enterStandby_entry (s : State) (i : Fin 64) : (enterStandby s).entry i = .cleared := by
  simp [enterStandby]

@[simp] theorem enterStandby_config (s : State) :
    (enterStandby s).config = { s.config with mode := .standby } := by
  simp [enterStandby]

@[simp] theorem clearIndications_slot (s : State) (i : Fin 32) :
    (clearIndications s).slot i = { s.slot i with indication := false } := by
  simp [clearIndications]

@[simp] theorem releaseSlot_slot (i j : Fin 32) (c : FaultCause) (s : State) :
    (releaseSlot i c s).slot j = if j = i then { s.slot i with health := .acquiring } else s.slot j := by
  simp [releaseSlot]

@[simp] theorem zeroCounters_slot (s : State) (i : Fin 32) :
    (zeroCounters s).slot i = { s.slot i with validTotal := 0 } := by
  simp [zeroCounters, State.slot]

/-! ## The lines -/

theorem Latch.drives_iff (l : Latch) : l.drives = true ↔ l = .active ∨ l = .set ∨ l = .deferred := by
  cases l <;> simp [Latch.drives]

theorem Health.isFaulted_iff (h : Health) : h.isFaulted = true ↔ ∃ cause, h = .faulted cause := by
  cases h <;> simp [Health.isFaulted]

/-- A line mask joined from those of the entries that pass a test. -/
theorem joined_getLsbD (test : Fin 64 → Bool) (mask : Fin 64 → BitVec 4) (l : List (Fin 64)) (b : BitVec 4) (k : Nat) :
    (l.foldl (fun a i => if test i then a ||| mask i else a) b).getLsbD k = true ↔
      b.getLsbD k = true ∨ ∃ i ∈ l, test i = true ∧ (mask i).getLsbD k = true := by
  induction l generalizing b with
  | nil => simp
  | cons i l ih =>
    rw [List.foldl_cons, ih]
    by_cases h : test i = true <;> simp [h, or_assoc]

/-- What the law of the trigger lines says of one line (R70). -/
theorem triggerLaw_getLsbD (s : State) (k : Nat) :
    (triggerLaw s).getLsbD k = true ↔ s.config.mode = .monitor ∧
      ∃ i : Fin 64, (s.entryRecord i).used = true ∧ (s.entryRecord i).mask.getLsbD k = true ∧
        ((s.entry i).latch = .active ∨ (s.entry i).latch = .set ∨ (s.entry i).latch = .deferred) := by
  unfold triggerLaw State.drivenMask
  split_ifs with h
  · rw [joined_getLsbD (fun i => (s.entryRecord i).used && (s.entry i).latch.drives)]
    simp only [h, List.mem_finRange, Bool.and_eq_true, true_and, Latch.drives_iff,
      show (0 : BitVec 4).getLsbD k = false by simp, Bool.false_eq_true, false_or]
    exact exists_congr fun i => by tauto
  · simp [h]

/-- What the law of FAULT_N says (R49). -/
theorem faultLaw_iff (s : State) : faultLaw s = true ↔ s.config.mode = .monitor ∧
    ((∃ i : Fin 32, ∃ cause, (s.slot i).health = .faulted cause) ∨ s.cycle.link = .stalled) := by
  simp [faultLaw, State.someFaulted, Health.isFaulted_iff]

/-- The laws of the lines as one equation. -/
theorem linesObeyLaws_iff (s : State) : s.linesObeyLaws ↔
    s.lines = if s.isAwake = true then { triggers := triggerLaw s, fault := faultLaw s } else .negated := by
  have ext : ∀ l : Lines, l = s.lines ↔
      (∀ k : Fin 4, s.lines.triggers.getLsbD k.val = l.triggers.getLsbD k.val) ∧ s.lines.fault = l.fault := by
    intro l
    constructor
    · rintro rfl
      simp
    · rintro ⟨h1, h2⟩
      rcases hs : s.lines with ⟨a, b⟩
      rw [hs] at h1 h2
      rcases l with ⟨c, d⟩
      simp only [Lines.mk.injEq]
      exact ⟨BitVec.eq_of_getLsbD_eq fun i hi => (h1 ⟨i, hi⟩).symm, h2.symm⟩
  rw [eq_comm, ext]
  unfold State.linesObeyLaws
  split_ifs with h
  · simp only [h, true_and]
    refine and_congr (forall_congr' fun k => ?_) ?_
    · rw [← triggerLaw_getLsbD]
      exact Bool.eq_iff_iff.symm
    · rw [← faultLaw_iff]
      exact Bool.eq_iff_iff.symm
  · simp [h, Lines.negated]

/-- Lines just settled obey their laws (R49, R70). -/
theorem settleLines_obeys (s : State) (h : s.isAwake = true) : (settleLines s).linesObeyLaws := by
  rw [linesObeyLaws_iff]
  simp only [settleLines_readers, h, if_true]
  rfl

/-- The laws of the lines read the mode, the active bank, which latches drive, which slots are FAULTED, and whether the link is
STALLED. -/
theorem State.linesObeyLaws.congr {s t : State} (hs : s.linesObeyLaws) (hl : t.lines = s.lines)
    (ha : t.isAwake = s.isAwake) (hm : t.config.mode = s.config.mode) (hb : t.activeBank = s.activeBank)
    (he : ∀ i, (t.entry i).latch.drives = (s.entry i).latch.drives)
    (hf : ∀ i, (t.slot i).health.isFaulted = (s.slot i).health.isFaulted)
    (hk : t.cycle.link = .stalled ↔ s.cycle.link = .stalled) : t.linesObeyLaws := by
  rw [linesObeyLaws_iff] at hs ⊢
  have h1 : triggerLaw t = triggerLaw s := by
    simp only [triggerLaw, State.drivenMask, State.entryRecord, hm, hb, he]
    rfl
  have h2 : faultLaw t = faultLaw s := by simp only [faultLaw, State.someFaulted, hm, hf, hk]
  rw [hl, hs, ha, h1, h2]

end Sys2Proof.Machine
end

