-- ==== Sys2Proof/Laws/Cycles.lean ====
section
/-! SUPPORT. What a cycle start and a cycle end leave in each block, the room made for end frames, and what a posting can do. -/

namespace Sys2Proof.Machine

/-! ## The Event Queue -/

/-- The lowest priority held is that of a record held. -/
theorem lowestPriority_mem {records : List EventRecord} (h : records ≠ []) :
    ∃ r ∈ records, r.priority = lowestPriority records := by
  induction records with
  | nil => exact absurd rfl h
  | cons a l ih =>
    have e : lowestPriority (a :: l) = min a.priority (lowestPriority l) := rfl
    by_cases hl : l = []
    · exact ⟨a, by simp, by subst hl; simp [lowestPriority]; omega⟩
    · obtain ⟨r, hr, hp⟩ := ih hl
      rcases le_total a.priority (lowestPriority l) with h | h
      · exact ⟨a, by simp, by rw [e, min_eq_left h]⟩
      · exact ⟨r, by simp [hr], by rw [e, min_eq_right h, hp]⟩

theorem withoutYoungest_sublist (p : Fin 4) (records : List EventRecord) :
    (withoutYoungest p records).Sublist records := by
  have h := (List.eraseP_sublist (p := fun r : EventRecord => decide (r.priority = p)) (l := records.reverse)).reverse
  simpa [withoutYoungest] using h

/-- A posting keeps the queue within its capacity (R106). -/
theorem EventQueue.post_length (q : EventQueue) (cycle : Word) (p : Fin 4) (d : Detail) (h : q.records.length ≤ 48) :
    (q.post cycle p d).records.length ≤ 48 := by
  unfold EventQueue.post
  dsimp only
  split_ifs with h1 h2
  · simp only [Config.eventCapacity, List.length_append, List.length_cons, List.length_nil] at *
    omega
  · have hl : q.records ≠ [] := by
      rintro he
      simp [he] at h1
    obtain ⟨r, hr, e⟩ := lowestPriority_mem hl
    have := List.length_eraseP_of_mem (p := fun x : EventRecord => decide (x.priority = lowestPriority q.records))
      (a := r) (l := q.records.reverse) (by simpa using hr) (by simp [e])
    have hpos := List.length_pos_iff.mpr hl
    simp only [withoutYoungest, List.length_append, List.length_reverse, List.length_cons, List.length_nil] at *
    omega
  · exact h

theorem foldl_post_length (l : List (Fin 4 × Detail)) (cycle : Word) (q : EventQueue) (h : q.records.length ≤ 48) :
    (l.foldl (fun q r => q.post cycle r.1 r.2) q).records.length ≤ 48 := by
  induction l generalizing q with
  | nil => exact h
  | cons r l ih => exact ih _ (q.post_length _ _ _ h)

/-! ## The swap and the mode change of a cycle start -/

theorem swapBanks_none {s : State} (h : s.config.pendingCommit = none) : swapBanks s = s := by
  unfold swapBanks
  rw [h]

/-- The banks having exchanged roles, before anything is carried over. -/
theorem exchanged_activeBank (s : State) :
    (s.withConfig { s.config with active := s.config.active.other }).activeBank = s.shadowBank := by
  simp only [State.activeBank, State.shadowBank, State.withConfig_config]
  cases s.config.active <;> rfl

theorem carryBanks_slot (old : Bank) (s : State) (i : Fin 32) : (carryBanks old s).slot i =
    match s.config.mode with
    | .monitor => carrySlot old.slots[i] s.activeBank.slots[i] (s.slot i)
    | .standby => carryStandby old.slots[i] s.activeBank.slots[i] (s.slot i) := by
  unfold carryBanks
  split <;> rename_i h <;> simp [h]

theorem carryBanks_entry (old : Bank) (s : State) (i : Fin 64) : (carryBanks old s).entry i =
    match s.config.mode with
    | .monitor => carryEntry old.entries[i] s.activeBank.entries[i]
        (leavers s.slot fun j => carrySlot old.slots[j] s.activeBank.slots[j] (s.slot j)) (s.entry i)
    | .standby => s.entry i := by
  unfold carryBanks
  split <;> rename_i h <;> simp [h]

section
variable {s : State} {tag : Byte} (h : s.config.pendingCommit = some tag)
include h

theorem swapBanks_config : (swapBanks s).config = { s.config with
    active := s.config.active.other, generation := s.config.generation + 1, pendingCommit := none,
    lastCommit := some tag } := by
  unfold swapBanks
  rw [h]
  simp [completeCommit]

theorem swapBanks_commands : (swapBanks s).commands = (s.commands.release RequestKind.commit.code).respond
    { tag, kind := RequestKind.commit.code, outcome := .done, reason := .none,
      data := bytes16 (s.config.generation + 1) ++ [s.config.active.other.code] } := by
  unfold swapBanks
  rw [h]
  simp [completeCommit]

theorem swapBanks_activeBank : (swapBanks s).activeBank = s.shadowBank ∧ (swapBanks s).shadowBank = s.activeBank := by
  simp only [State.activeBank, State.shadowBank, swapBanks_config h, BankName.other_other]
  constructor <;> (cases s.config.active <;> rfl)

theorem swapBanks_slot (i : Fin 32) : (swapBanks s).slot i =
    match s.config.mode with
    | .monitor => carrySlot s.activeBank.slots[i] s.shadowBank.slots[i] (s.slot i)
    | .standby => carryStandby s.activeBank.slots[i] s.shadowBank.slots[i] (s.slot i) := by
  unfold swapBanks
  rw [h]
  simp only [completeCommit_readers]
  rw [carryBanks_slot, exchanged_activeBank]
  rfl

theorem swapBanks_entry (i : Fin 64) : (swapBanks s).entry i =
    match s.config.mode with
    | .monitor => carryEntry s.activeBank.entries[i] s.shadowBank.entries[i]
        (leavers s.slot fun j => carrySlot s.activeBank.slots[j] s.shadowBank.slots[j] (s.slot j)) (s.entry i)
    | .standby => s.entry i := by
  unfold swapBanks
  rw [h]
  simp only [completeCommit_readers]
  rw [carryBanks_entry, exchanged_activeBank]
  rfl

end

theorem swapBanks_counters (s : State) : (swapBanks s).channels.counters = s.channels.counters := by
  unfold swapBanks
  split
  · rfl
  · unfold carryBanks
    simp only [completeCommit_keeps]
    split <;> simp [carryOver]

theorem applyMode_none {s : State} (h : s.config.pendingMode = none) : applyMode s = s := by
  unfold applyMode
  rw [h]

/-- A mode change applied: entry to MONITOR, or refused for want of a configured slot (R151). -/
theorem applyMode_monitor {s : State} {tag : Byte} (h : s.config.pendingMode = some (.monitor, tag)) :
    applyMode s = if s.activeBank.hasConfigured then
      completeMode tag .done .none (enterMonitor (post 2 (.modeChanged s.config.mode .monitor) s))
    else completeMode tag .refused .emptyBank s := by
  unfold applyMode
  rw [h]

/-- A mode change applied: entry to STANDBY (R151). -/
theorem applyMode_standby {s : State} {tag : Byte} (h : s.config.pendingMode = some (.standby, tag)) :
    applyMode s = completeMode tag .done .none (enterStandby (post 2 (.modeChanged s.config.mode .standby) s)) := by
  unfold applyMode
  rw [h]

@[simp] theorem completeMode_config (tag : Byte) (o : RequestOutcome) (r : Reason) (s : State) :
    (completeMode tag o r s).config = { s.config with pendingMode := none } := rfl

@[simp] theorem completeMode_commands (tag : Byte) (o : RequestOutcome) (r : Reason) (s : State) :
    (completeMode tag o r s).commands = (s.commands.release RequestKind.setMode.code).respond
      { tag, kind := RequestKind.setMode.code, outcome := o, reason := r, data := [] } := rfl

/-- The active bank reads the banks and the choice of the active one, which a mode change keeps. -/
@[simp] theorem applyMode_banks (s : State) :
    (applyMode s).activeBank = s.activeBank ∧ (applyMode s).shadowBank = s.shadowBank := by
  apply State.activeBank_congr <;> (unfold applyMode; split <;> (try split_ifs) <;> simp)

/-- What a mode change can make of the slots, the entries and the mode. -/
theorem applyMode_cases (s : State) :
    ((applyMode s).config.mode = s.config.mode ∧ (∀ i, (applyMode s).slot i = s.slot i) ∧
      (∀ i, (applyMode s).entry i = s.entry i)) ∨
    ((applyMode s).config.mode = .monitor ∧
      (∀ i, (applyMode s).slot i = { (s.slot i).restartIn
        (if (s.slotRecord i).configured then .acquiring else .unused) with indication := false }) ∧
      (∀ i, (applyMode s).entry i = s.entry i)) ∨
    ((applyMode s).config.mode = .standby ∧
      (∀ i, (applyMode s).slot i = { (s.slot i).restartIn .unused with indication := false }) ∧
      (∀ i, (applyMode s).entry i = .cleared)) := by
  unfold applyMode
  split
  · exact .inl (by simp)
  · split_ifs
    · exact .inr (.inl (by simp))
    · exact .inl (by simp)
  · exact .inr (.inr (by simp))

/-! ## The cycle start -/

@[simp] theorem openLink_cycle (n : Word) (s : State) : (openLink n s).cycle = { s.cycle with
    link := .opened, currentCycle := some n, periodTimer := some 0
    deadlineTimer := some s.activeBank.link.closeDeadline
    counters := { s.cycle.counters with opensTaken := satInc s.cycle.counters.opensTaken } } := rfl

/-- The slots, the entries, the banks, the Command Unit and the queue a cycle start leaves are those of its swap and mode
change. -/
theorem startCycle_values (n : Word) (s : State) :
    (∀ i, (startCycle n s).slot i = (applyMode (swapBanks (clearIndications s))).slot i) ∧
    (∀ i, (startCycle n s).entry i = (applyMode (swapBanks (clearIndications s))).entry i) ∧
    (startCycle n s).config = (applyMode (swapBanks (clearIndications s))).config ∧
    (startCycle n s).commands = (applyMode (swapBanks (clearIndications s))).commands ∧
    (startCycle n s).queue = (applyMode (swapBanks (clearIndications s))).queue := by
  simp [startCycle]

/-! ## Building (R114 to R120) -/

/-- What a build leaves is what drawing leaves, with the report number taken and the dropped count 0. -/
theorem buildReport_values (s : State) :
    (buildReport s).1.reports = { (drawItems s).reports with
      lastNumber := s.reports.lastNumber + 1, droppedSinceReport := 0 } ∧
    (buildReport s).1.queue = (drawItems s).queue ∧ (buildReport s).1.commands = (drawItems s).commands :=
  ⟨rfl, rfl, rfl⟩

/-! ## Room for end frames (R186) -/

/-- Removal keeps the order and every end frame, and takes away as many forwarded frames as it is asked to, or all. -/
theorem removeForwarded_spec (k : Nat) (l : List InboundFrame) :
    (removeForwarded k l).Sublist l ∧
    (removeForwarded k l).filter (fun f => !f.isForwarded) = l.filter (fun f => !f.isForwarded) ∧
    (removeForwarded k l).countP InboundFrame.isForwarded = l.countP InboundFrame.isForwarded - k := by
  induction l generalizing k with
  | nil => cases k <;> simp [removeForwarded]
  | cons f l ih =>
    cases k with
    | zero => simp [removeForwarded]
    | succ k =>
      unfold removeForwarded
      split_ifs with h
      · obtain ⟨h1, h2, h3⟩ := ih k
        exact ⟨h1.cons _, by simp [h, h2], by simp [h, h3]⟩
      · obtain ⟨h1, h2, h3⟩ := ih (k + 1)
        exact ⟨h1.cons_cons _, by simp [h, h2], by simp [h, h3]⟩

/-- Making room keeps the order, the head and every end frame, and takes away the forwarded frames behind the head that stand
in the way of two more frames, or all of them. -/
theorem makeRoom_spec (l : List InboundFrame) :
    (makeRoom l).Sublist l ∧ (makeRoom l).head? = l.head? ∧
    (makeRoom l).filter (fun f => !f.isForwarded) = l.filter (fun f => !f.isForwarded) ∧
    ∀ h t, l = h :: t → (makeRoom l).tail.countP InboundFrame.isForwarded =
      t.countP InboundFrame.isForwarded - (l.length - 6) := by
  cases l with
  | nil => simp [makeRoom]
  | cons h t =>
    obtain ⟨h1, h2, h3⟩ := removeForwarded_spec ((h :: t).length + 2 - Config.inboundPlaces) t.reverse
    refine ⟨?_, rfl, ?_, ?_⟩
    · unfold makeRoom
      exact List.Sublist.cons_cons _ (by simpa using h1.reverse)
    · simp only [makeRoom, List.filter_cons, List.filter_reverse] at h2 ⊢
      rw [h2]
      simp
    · rintro _ _ ⟨⟩
      simp only [makeRoom, List.tail_cons, List.countP_reverse] at h3 ⊢
      rw [h3]
      simp [Config.inboundPlaces]

/-- Removal splits what it is given, youngest first, at a point: of the younger part the end frames are left, with as many
forwarded frames gone as were asked for or were there, and the older part stands. -/
theorem removeForwarded_split (k : Nat) (l : List InboundFrame) : ∃ younger older, l = younger ++ older ∧
    removeForwarded k l = younger.filter (fun f => !f.isForwarded) ++ older ∧
    younger.countP InboundFrame.isForwarded = min k (l.countP InboundFrame.isForwarded) := by
  induction l generalizing k with
  | nil => exact ⟨[], [], rfl, by cases k <;> rfl, by simp⟩
  | cons f l ih =>
    cases k with
    | zero => exact ⟨[], f :: l, rfl, rfl, by simp⟩
    | succ k =>
      unfold removeForwarded
      split_ifs with h
      · obtain ⟨y, o, h1, h2, h3⟩ := ih k
        exact ⟨f :: y, o, by rw [h1]; rfl, by simp [h, h2], by simp [h, h3]⟩
      · obtain ⟨y, o, h1, h2, h3⟩ := ih (k + 1)
        exact ⟨f :: y, o, by rw [h1]; rfl, by simp [h, h2], by simp [h, h3]⟩

/-- The placing of two end frames, as `FramePath.placedEnd` says it. -/
theorem placeEnd_placed (report : List Byte) (close : InboundFrame) (s : State) :
    s.frames.placedEnd (placeEnd report close s).frames { bytes := report, cls := .report } close := by
  rcases h : s.frames.inbound with _ | ⟨head, rest⟩
  · exact ⟨[], [], by simp [h], by simp [h], by simp [placeEnd, h, makeRoom], by simp [h], by simp [placeEnd, h, makeRoom]⟩
  · obtain ⟨y, o, h1, h2, h3⟩ := removeForwarded_split (rest.length + 1 + 2 - Config.inboundPlaces) rest.reverse
    have hr : rest = o.reverse ++ y.reverse := by simpa using congrArg List.reverse h1
    have hm : makeRoom s.frames.inbound = head :: o.reverse ++ y.reverse.filter (fun f => !f.isForwarded) := by
      simp [h, makeRoom, h2, List.filter_reverse]
    have hk : (y.filter fun f => !f.isForwarded).length + y.countP InboundFrame.isForwarded = y.length := by
      have hc := List.length_eq_countP_add_countP InboundFrame.isForwarded (l := y)
      rw [← List.countP_eq_length_filter]
      simp only [Bool.not_eq_true, Bool.decide_eq_false] at hc
      omega
    refine ⟨head :: o.reverse, y.reverse, by simp [h, hr], by simp, ?_, ?_, ?_⟩
    · simp [placeEnd, hm]
    · rw [List.countP_reverse, h3, List.countP_reverse]
      simp [h, Config.inboundPlaces]
    · simp only [placeEnd, State.withFrames_frames, List.countP_reverse, hm]
      congr 1
      simp [h, hr, List.filter_reverse]
      omega

/-! ## The cycle end -/

@[simp] theorem postCapture_cycle (s : State) : (postCapture s).cycle = { s.cycle with captureSlot := none } := by
  unfold postCapture
  split
  · rename_i h
    rw [← h]
  · rfl

@[simp] theorem settleCycle_cycle (e : CycleEnding) (s : State) :
    (settleCycle e s).cycle = { s.cycle with link := .closed, deadlineTimer := none, captureSlot := none } := by
  simp [settleCycle, closeLink]

@[simp] theorem endCycle_cycle (e : CycleEnding) (s : State) :
    (endCycle e s).cycle = { s.cycle with link := .closed, deadlineTimer := none, captureSlot := none } := by
  simp [endCycle]

@[simp] theorem settleCycle_slot (e : CycleEnding) (s : State) (i : Fin 32) : (settleCycle e s).slot i =
    partnerStep s.activeBank (fun j => missingStep s.activeBank.slots[j] (s.slot j)) i := by
  simp [settleCycle]

@[simp] theorem endCycle_slot (e : CycleEnding) (s : State) (i : Fin 32) : (endCycle e s).slot i =
    partnerStep s.activeBank (fun j => missingStep s.activeBank.slots[j] (s.slot j)) i := by
  simp [endCycle]

theorem evaluateCycleEnd_entry (s : State) (j : Fin 64) : (evaluateCycleEnd s).entry j =
    if (s.entryRecord j).used && leavers s.slot
        (partnerStep s.activeBank fun i => missingStep s.activeBank.slots[i] (s.slot i)) (s.entryRecord j).slot then
      leaveEntry (s.entry j)
    else s.entry j := by
  simp [evaluateCycleEnd]

@[simp] theorem endCycle_entry (e : CycleEnding) (s : State) (j : Fin 64) : (endCycle e s).entry j =
    if (s.entryRecord j).used && leavers s.slot
        (partnerStep s.activeBank fun i => missingStep s.activeBank.slots[i] (s.slot i)) (s.entryRecord j).slot then
      leaveEntry (s.entry j)
    else s.entry j := by
  have h : ∀ u : State, (∀ i, u.slot i = s.slot i) → (u.activeBank = s.activeBank) → (∀ i, u.entry i = s.entry i) →
      (∀ i, u.entryRecord i = s.entryRecord i) → (evaluateCycleEnd u).entry j = (evaluateCycleEnd s).entry j := by
    intro u h1 h2 h3 h4
    have h5 : u.slot = s.slot := funext h1
    simp only [evaluateCycleEnd_entry, h2, h3, h4, h5]
  rw [← evaluateCycleEnd_entry]
  simp only [endCycle, settleCycle, placeEnd_readers, buildReport_readers, settleLines_readers]
  apply h <;> simp [closeLink]

@[simp] theorem endCycle_counters (e : CycleEnding) (s : State) :
    (endCycle e s).channels.counters = s.channels.counters := by
  simp [endCycle, settleCycle, closeLink]

/-- What a cycle end leaves in the Report Builder, the queue and the Command Unit is what the build of its REPORT leaves. -/
theorem endCycle_values (e : CycleEnding) (s : State) :
    (endCycle e s).reports = (buildReport (settleCycle e s)).1.reports ∧
    (endCycle e s).queue = (buildReport (settleCycle e s)).1.queue ∧
    (endCycle e s).commands = (buildReport (settleCycle e s)).1.commands := by
  simp [endCycle]

/-- A cycle end places its REPORT and its CLOSE (R186). -/
theorem endCycle_placed (e : CycleEnding) (s : State) : s.frames.placedEnd (endCycle e s).frames
    { bytes := (buildReport (settleCycle e s)).2, cls := .report } (e.closeFrame (settleCycle e s)) := by
  have h := placeEnd_placed (buildReport (settleCycle e s)).2 (e.closeFrame (settleCycle e s))
    (buildReport (settleCycle e s)).1
  simpa [endCycle] using h

@[simp] theorem endCycle_outbound (e : CycleEnding) (s : State) :
    (endCycle e s).frames.outbound = s.frames.outbound := by
  simp [endCycle, placeEnd]

end Sys2Proof.Machine
end

