-- ==== Sys2Proof/Laws/Effects.lean ====
section
/-! SUPPORT. What each shared operation can do, said once. -/

namespace Sys2Proof.Machine

/-! ## Steps -/

/-- A law that the queue of waiting commands does not touch, and that every tick and every command keep, is kept by every
step. -/
theorem keptByStep_of {law : State → Prop} (hpending : ∀ s l, law s → law (s.withPending l))
    (hpins : ∀ s (p : Pins), p.phase = s.pins.phase → p.strap = s.pins.strap → law s → law (s.withPins p))
    (htick : ∀ s, law s → law (advanceTimers s)) (hexec : ∀ c s t, law s → exec c s = .next t → law t) :
    KeptByStep law := by
  intro s t hs hstep
  unfold step at hstep
  split at hstep
  · simp only [Host.Outcome.next.injEq] at hstep
    subst hstep
    unfold idle
    split_ifs
    · exact hpending _ _ hs
    · exact hpending _ _ hs
    · exact hpending _ _ (htick _ hs)
    · exact hpins _ _ rfl rfl hs
  · exact hexec _ _ _ (hpending _ _ hs) hstep

/-! ## Requests -/

/-- The execution of a request command: nothing, or the oldest waiting request of its kind carried out or refused for its
length. -/
theorem executeAs_cases (kind : Option RequestKind) (run : Request → State → State) (s : State) :
    executeAs kind run s = s ∨
    ∃ q, s.pins.phase = .running ∧ s.commands.next = some q ∧ requestKindOf q.kind = kind ∧
      ((executeAs kind run s = run q s ∧ ∀ k, kind = some k → lengthFits k q.arguments = true) ∨
       executeAs kind run s = refuse q .badValue s) := by
  unfold executeAs
  split_ifs with hp
  · split
    · exact .inl rfl
    · rename_i q hq
      split_ifs with hk
      · refine .inr ⟨q, hp, hq, hk, ?_⟩
        cases kind with
        | none => exact .inl ⟨rfl, by simp⟩
        | some k =>
          dsimp only
          split_ifs with hl
          · exact .inl ⟨rfl, by rintro _ ⟨⟩; exact hl⟩
          · exact .inr rfl
      · exact .inl rfl
  · exact .inl rfl

/-- The request `q` executes as one of the kind given: it is the oldest waiting one, the part is running, and its argument
length fits. -/
def State.executes (s : State) (q : Request) (kind : Option RequestKind) : Prop :=
  s.pins.phase = .running ∧ s.commands.next = some q ∧ requestKindOf q.kind = kind ∧
    ∀ k, kind = some k → lengthFits k q.arguments = true

/-! ## Receivers and lines -/

/-- A run is received only out of reset. -/
theorem State.receives_awake {s : State} {run : Run} (h : s.receives run = true) : s.isAwake = true := by
  simp only [State.receives, Bool.and_eq_true] at h
  exact h.1

/-- A run is received exactly out of reset, its start not seen before the initialisation period began. -/
theorem State.receives_iff (s : State) (run : Run) :
    s.receives run = true ↔ s.isAwake = true ∧ run.early = false := by
  simp [State.receives]

/-- Finding CAPTURE at a level moves the pins alone, or is an edge. -/
theorem findCapture_cases (high : Bool) (s : State) :
    (∃ p : Pins, p.phase = s.pins.phase ∧ p.strap = s.pins.strap ∧ findCapture high s = s.withPins p) ∨
      findCapture high s = qualifyEdge s := by
  unfold findCapture
  dsimp only
  split_ifs
  · exact .inl ⟨{ s.pins with capture := high }, rfl, rfl, rfl⟩
  · exact .inr rfl
  · exact .inl ⟨({ s.pins with capture := high } : Pins).sampleCapture, rfl, rfl, rfl⟩

/-! ## Laws kept by every step -/

/-- A law that every operation of the part keeps is kept by every command. -/
theorem kept_by_exec {law : State → Prop}
    (hPins : ∀ s (p : Pins), p.phase = s.pins.phase → p.strap = s.pins.strap → law s → law (s.withPins p))
    (hEnter : ∀ s phase, phase = .powerOnReset ∨ phase = .pinReset → law s → law (enterReset phase s))
    (hLeave : ∀ s straps, law s → law (leaveReset straps s))
    (hHeld : ∀ s straps, law s →
      law ((leaveReset straps s).withPins { (leaveReset straps s).pins with phase := .pinReset }))
    (hInitialised : ∀ s, law s → s.pins.phase = .initialising →
      law (s.withPins { s.pins with phase := .running, initialisationTicks := Config.initialisationTicks }))
    (hCp : ∀ s run, law s → s.isAwake = true → law (receiveCp run s))
    (hSp : ∀ s run, law s → s.isAwake = true → law (receiveSp run s))
    (hSentCp : ∀ s, law s → law (s.withFrames (departInbound s.frames)))
    (hSentSp : ∀ s, law s → law (s.withFrames (departOutbound s.frames)))
    (hRelease : ∀ s, law s → s.pins.phase = .running → law (handleWaiting s))
    (hDeadline : ∀ s, law s → s.pins.phase = .running → s.cycle.link = .opened → law (deadlineEnd s))
    (hStall : ∀ s, law s → s.pins.phase = .running → s.isSupervised = true → law (stall s))
    (hEdge : ∀ s, law s → law (qualifyEdge s))
    (hRefuse : ∀ s q reason, law s → s.pins.phase = .running → s.commands.next = some q → law (refuse q reason s))
    (hReadEntry : ∀ s q, law s → s.executes q (some .readEntry) → law (runReadEntry q s))
    (hWriteShadow : ∀ s q, law s → s.executes q (some .writeShadow) → law (runWriteShadow q s))
    (hSyncShadow : ∀ s q, law s → s.executes q (some .syncShadow) → law (runSyncShadow q s))
    (hCommit : ∀ s q, law s → s.executes q (some .commit) → law (runCommit q s))
    (hAbortCommit : ∀ s q, law s → s.executes q (some .abortCommit) → law (runAbortCommit q s))
    (hSetMode : ∀ s q, law s → s.executes q (some .setMode) → law (runSetMode q s))
    (hAckEvent : ∀ s q, law s → s.executes q (some .ackEvent) → law (runAckEvent q s))
    (hAckChannel : ∀ s q, law s → s.executes q (some .ackChannel) → law (runAckChannel q s))
    (hReadChannel : ∀ s q, law s → s.executes q (some .readChannel) → law (runReadChannel q s))
    (hReadStatus : ∀ s q, law s → s.executes q (some .readStatus) → law (runReadStatus q s))
    (hClearCounters : ∀ s q, law s → s.executes q (some .clearCounters) → law (runClearCounters q s))
    (hRestart : ∀ s q, law s → s.executes q (some .restart) → law (runRestart q s)) :
    ∀ c s t, law s → exec c s = .next t → law t := by
  intro c s t h he
  have request : ∀ kind run, (∀ q, s.executes q kind → law (run q s)) → law (executeAs kind run s) := by
    intro kind run hr
    rcases executeAs_cases kind run s with h1 | ⟨q, hp, hn, hk, ⟨h1, hl⟩ | h1⟩ <;> rw [h1]
    · exact h
    · exact hr q ⟨hp, hn, hk, hl⟩
    · exact hRefuse _ _ _ h hp hn
  cases c <;> simp only [exec, Host.Outcome.next.injEq, execPowerOn, execResetEntry, execResetRelease,
    execInitialisationEnd, execSupplyOutOfLimits, execFrameReceivedCp, execFrameReceivedSp, execFrameSentCp,
    execFrameSentSp, execOpenHoldRelease, execCloseDeadlineExpiry, execPeriodMaximumExpiry, execCaptureEdge,
    execCaptureLineChange, execReadEntry, execWriteShadow, execSyncShadow, execCommit, execAbortCommit, execSetMode,
    execAckEvent, execAckChannel, execReadChannel, execReadStatus, execClearCounters, execRestart,
    execUnknownRequest] at he <;> subst he
  case powerOn => split_ifs; exacts [h, hHeld _ _ h, hLeave _ _ h]
  case resetEntry =>
    have hLow := hPins _ { s.pins with resetLow := min ‹Nat› Config.resetLowTicks } rfl rfl h
    split
    · exact hLow
    · exact h
    · split_ifs; exacts [hEnter _ _ (.inr rfl) hLow, hLow]
  case resetRelease => split_ifs; exacts [hLeave _ _ (hPins _ _ rfl rfl h), hPins _ _ rfl rfl h]
  case initialisationEnd => split_ifs with hi; exacts [hInitialised _ h hi, h]
  case supplyOutOfLimits => exact hEnter _ _ (.inl rfl) h
  case frameReceivedCp => split_ifs with ha; exacts [hCp _ _ h (State.receives_awake ha), h]
  case frameReceivedSp => split_ifs with ha; exacts [hSp _ _ h (State.receives_awake ha), h]
  case frameSentCp => split_ifs; exacts [hSentCp _ h, h]
  case frameSentSp => split_ifs; exacts [hSentSp _ h, h]
  case openHoldRelease => split_ifs with hr; exacts [hRelease _ h hr.1, h]
  case closeDeadlineExpiry => split_ifs with hd; exacts [hDeadline _ h hd.1 hd.2.1, h]
  case periodMaximumExpiry => split_ifs with hm; exacts [hStall _ h hm.1 hm.2, h]
  case captureEdge => split_ifs; exacts [hEdge _ h, h]
  case captureLineChange =>
    split_ifs
    · rcases findCapture_cases ‹Bool› s with ⟨p, hp, hst, e⟩ | e <;> rw [e]
      exacts [hPins _ _ hp hst h, hEdge _ h]
    · exact hPins _ _ rfl rfl h
  case unknownRequest => exact request _ _ fun q hq => hRefuse _ _ _ h hq.1 hq.2.1
  case readEntry => exact request _ _ fun q hq => hReadEntry _ _ h hq
  case writeShadow => exact request _ _ fun q hq => hWriteShadow _ _ h hq
  case syncShadow => exact request _ _ fun q hq => hSyncShadow _ _ h hq
  case commit => exact request _ _ fun q hq => hCommit _ _ h hq
  case abortCommit => exact request _ _ fun q hq => hAbortCommit _ _ h hq
  case setMode => exact request _ _ fun q hq => hSetMode _ _ h hq
  case ackEvent => exact request _ _ fun q hq => hAckEvent _ _ h hq
  case ackChannel => exact request _ _ fun q hq => hAckChannel _ _ h hq
  case readChannel => exact request _ _ fun q hq => hReadChannel _ _ h hq
  case readStatus => exact request _ _ fun q hq => hReadStatus _ _ h hq
  case clearCounters => exact request _ _ fun q hq => hClearCounters _ _ h hq
  case restart => exact request _ _ fun q hq => hRestart _ _ h hq

/-- A law that the judging of a run, its entry in the outbound buffer and the handling of that buffer keep is kept by a reception
at CP. The buffer is handled only in a running part. -/
theorem receiveCp_kept {law : State → Prop} (run : Run) (s : State) (hs : law s) (ha : s.isAwake = true)
    (hJudge : law s → law (judgeRun true run s))
    (hEnter : ∀ u handled, law u → law (enterOutbound run handled u).1)
    (hWait : ∀ u, law u → u.pins.phase = .running → law (handleWaiting u)) : law (receiveCp run s) := by
  unfold receiveCp
  dsimp only
  split_ifs with h1 h2 h3
  · exact hJudge hs
  · exact hEnter _ _ (hJudge hs)
  · refine hWait _ (hEnter _ _ (hJudge hs)) ?_
    simp only [enterOutbound_keeps, judgeRun_keeps]
    simpa [State.isAwake, h2] using ha
  · exact hEnter _ _ (hJudge hs)

/-- A law that the judging of a run, an admission, the taking of a SAMPLE, the counting of a malformed CLOSE and the taking of a
CLOSE keep is kept by a reception at SP. -/
theorem receiveSp_kept {law : State → Prop} (run : Run) (s : State) (hs : law s)
    (hJudge : law s → law (judgeRun false run s)) (hAdmit : ∀ u bytes, law u → law (admitInbound bytes u))
    (hSample : ∀ u address body, law u → u.pins.phase = .running → u.config.mode = .monitor →
      law (takeSample address body u).1)
    (hMalformed : ∀ u, law u → law (countMalformedLink u))
    (hClose : ∀ u cycle, law u → u.pins.phase = .running → law (takeClose cycle run.bytes u)) :
    law (receiveSp run s) := by
  unfold receiveSp
  dsimp only
  split_ifs with h1 h2
  · exact hJudge hs
  · split
    · unfold handleInbound
      dsimp only
      split_ifs with h3
      · exact hAdmit _ _ (hSample _ _ _ (hJudge hs) (by simpa using h2) h3.2)
      · split
        · exact hAdmit _ _ (hMalformed _ (hJudge hs))
        · exact hClose _ _ (hJudge hs) (by simpa using h2)
      · exact hAdmit _ _ (hJudge hs)
    · exact hAdmit _ _ (hJudge hs)
  · split <;> exact hAdmit _ _ (hJudge hs)

/-- A law that the handling of each outbound frame keeps is kept by the handling of the outbound buffer. -/
theorem handleInTurn_kept {law : State → Prop}
    (h : ∀ s run, law s → mustHold run s = false → law (handleOutbound run s).1) (frames : List OutboundFrame)
    (s : State) (hs : law s) : law (handleInTurn frames s).1 := by
  induction frames generalizing s with
  | nil => exact hs
  | cons f frames ih =>
    unfold handleInTurn
    split_ifs with hf hm
    · exact ih _ hs
    · exact hs
    · exact ih _ (h _ _ hs (by simpa using hm))

end Sys2Proof.Machine
end

