-- ==== Sys2Proof/WellFormed.lean ====
section
/-! DEFINITION. Which commands the outside can send: a delivered run holds a byte, the end of power-on reset has the ticks of
CLKIN it needs, and RESET_N found low was found so on a tick. The machine gives every command a meaning; these say which of them
happen on a chain. -/

namespace Sys2Proof

/-- A receiver delivers the bytes between two idle intervals, so a delivered run holds at least one (R192). -/
def Run.wellFormed (r : Run) : Bool := !r.bytes.isEmpty

/-- The checks on a command's operands. -/
def Instr.wellFormed : Instr → Bool
  | .powerOn _ clkinTicks => decide (Config.powerOnTicks ≤ clkinTicks)
  | .resetEntry lowTicks => decide (1 ≤ lowTicks)
  | .frameReceivedCp run => run.wellFormed
  | .frameReceivedSp run => run.wellFormed
  | .resetRelease _ => true
  | .initialisationEnd => true
  | .frameSentCp => true
  | .frameSentSp => true
  | .openHoldRelease => true
  | .closeDeadlineExpiry => true
  | .periodMaximumExpiry => true
  | .captureEdge => true
  | .readEntry => true
  | .writeShadow => true
  | .syncShadow => true
  | .commit => true
  | .abortCommit => true
  | .setMode => true
  | .ackEvent => true
  | .ackChannel => true
  | .readChannel => true
  | .readStatus => true
  | .clearCounters => true
  | .restart => true
  | .unknownRequest => true
  | .captureLineChange _ => true
  | .supplyOutOfLimits => true

end Sys2Proof
end

