-- ==== Sys2Proof/Tests/Slice0.lean ====
section
/-! SUPPORT. Tests: the checks of WellFormed, the worked examples and tables of the data sheet on single commands, and for each
statement with hypotheses a state and operands that meet them. -/

namespace Sys2Proof.Tests

open Sys2Proof Sys2Proof.Machine

set_option Elab.async false

/-! ## WellFormed: an ill-formed term for each check, and the boundary that passes -/

theorem test_powerOn_short_clock_refused : (Instr.powerOn 6 999).wellFormed = false := by decide
theorem test_powerOn_full_clock_accepted : (Instr.powerOn 6 1000).wellFormed = true := by decide
theorem test_resetEntry_no_low_refused : (Instr.resetEntry 0).wellFormed = false := by decide
theorem test_resetEntry_low_accepted : (Instr.resetEntry 1).wellFormed = true := by decide
theorem test_frameReceivedCp_empty_refused : (Instr.frameReceivedCp { bytes := [], framingError := false }).wellFormed = false := by decide
theorem test_frameReceivedSp_empty_refused : (Instr.frameReceivedSp { bytes := [], framingError := true }).wellFormed = false := by decide

/-! ## Small states and commands -/

/-- The state a command leaves. -/
def after (c : Instr) (s : State) : State :=
  match exec c s with
  | .next t => t
  | .fault _ => s
  | .refused _ => s

/-- The state a step leaves. -/
def stepped (s : State) : State :=
  match step s with
  | .next t => t
  | .fault _ => s
  | .refused _ => s

/-- The run of a frame with its check. -/
def runOf (type address : Byte) (body : List Byte) : Run :=
  { bytes := (Frame.mk type address body).bytes, framingError := false }

/-- An OPEN. -/
def openRun (cycle : Word) (acks : List (Byte × Byte)) : Run :=
  runOf 0x10 0 (bytes16 cycle ++ [byteOf acks.length] ++ acks.flatMap fun a => [a.1, a.2])

/-- A CLOSE as the last sensor sends it. -/
def closeRun (cycle : Word) : Run := runOf 0x28 20 (bytes16 cycle ++ [0])

/-- An MGMT frame to the part at address 6. -/
def mgmtRun (tag kind : Byte) (arguments : List Byte) : Run := runOf 0x18 6 (tag :: kind :: arguments)

/-- A SCALAR SAMPLE. -/
def scalarRun (node subchannel : Byte) (cycle position : Word) (marks : Byte) : Run :=
  runOf 0x20 node ([subchannel] ++ bytes16 cycle ++ bytes16 position ++ [marks])

/-- A PAIR SAMPLE. -/
def pairRun (node subchannel : Byte) (cycle position : Word) (a b : Int) : Run :=
  runOf 0x20 node ([0x80 ||| subchannel] ++ bytes16 cycle ++ bytes16 position ++ [0] ++ bytes16 (BitVec.ofInt 16 a) ++
    bytes16 (BitVec.ofInt 16 b))

/-- A run that is no intact frame. -/
def badRun : Run := { bytes := [0x20, 9, 0], framingError := false }

/-- The slots of the worked examples of chapters 1 to 3: 2 SCALAR, 5 PAIR, 8 and 9 partners. -/
def exampleSlots : Vector SlotRecord 32 :=
  let scalar := { SlotRecord.empty with configured := true, rateLimit := 400, ratePersistence := 2, missingLimit := 3 }
  (((Bank.empty.slots.set 2 { scalar with node := 9, settlingHold := 2 }).set 5
    { scalar with node := 7, subchannel := 1, kind := .pair, resolution := 14, positionOffset := 1200, offsetA := -150,
                  offsetB := 300, gainB := 1100, envelopeLow := 4000, envelopeHigh := 16000, envelopeLimit := 3,
                  decayRun := 4, settlingHold := 2, rewrite := true }).set 8
    { scalar with node := 11, partner := some 9, mismatchTolerance := 50, mismatchPersistence := 2 }).set 9
    { scalar with node := 12, partner := some 8, mismatchTolerance := 50, mismatchPersistence := 2 }

/-- The entries of the worked example of chapter 3, bound to slot 2. -/
def exampleEntries : Vector EntryRecord 64 :=
  (Bank.empty.entries.set 20
    { used := true, slot := 2, form := .inside, lo := 1000, hi := 2000, hysteresis := 50, mode := .latched, priority := 2,
      mask := 2 }).set 21
    { used := true, slot := 2, form := .inside, lo := 1900, hi := 2200, hysteresis := 0, mode := .level, priority := 1,
      mask := 6 }

/-- A bank with the examples' slots and entries. -/
def exampleBank : Bank where
  slots := exampleSlots
  entries := exampleEntries
  link := { closeDeadline := 10000, periodMinimum := 20000, periodMaximum := 30000 }

/-- The part at address 6 right after its initialisation period. -/
def running : State :=
  { State.reset with pins := {
      phase := .running, initialisationTicks := 1000, strap := 6, qualifier := .low, capture := false
      captureSampled := false, resetLow := 0 } }

/-- A slot in a state with the position given, of cycle 811. -/
def standing (health : Health) (position : Word) : SlotState :=
  { SlotState.cleared with health, lastPosition := some (position, 811) }

/-- MONITOR with the example's bank active and cycle 812 open; slots 2 and 8 in TRACKING, 5 in SETTLING, 9 in SUSPECT. -/
def monitoring : State :=
  { running with
    config := { ConfigController.initial with bankA := exampleBank, mode := .monitor }
    cycle := { CycleTracker.initial with
      link := .opened, currentCycle := some 812, deadlineTimer := some 10000, periodTimer := some 40 }
    channels := { ChannelEngine.initial with
      slots := (((ChannelEngine.initial.slots.set 2 (standing .tracking 800)).set 5
        { standing .settling 65520 with hold := 2 }).set 8 (standing .tracking 1000)).set 9
        { standing .suspect 1050 with missing := 1 } }
    matcher := { entries := (EventMatcher.initial.entries.set 20 ⟨.outWindow, .idle⟩).set 21 ⟨.outWindow, .idle⟩ } }

/-- A state with the slot given changed. -/
def slotAs (s : State) (i : Fin 32) (f : SlotState → SlotState) : State := s.withSlot i (f (s.slot i))

/-- A state whose inbound relay buffer holds the classes given. -/
def inboundOf (s : State) (classes : List InboundClass) : State :=
  { s with frames := { s.frames with inbound := classes.map fun c => { bytes := [0], cls := c } } }

/-- A state whose outbound relay buffer holds `n` handled frames. -/
def outboundOf (s : State) (n : Nat) : State :=
  { s with frames := { s.frames with outbound := List.replicate n { run := badRun, handled := true } } }

/-- A request. -/
def request (kind : Byte) (arguments : List Byte) : Request := { tag := 9, kind, arguments }

/-- A state in which a request waits alone. -/
def holding (s : State) (kind : Byte) (arguments : List Byte) : State :=
  { s with commands := { s.commands with
      slots := [{ request := request kind arguments, pending := false }], freeCredits := 3 } }

/-- A state in which a request waits behind a PENDING one. -/
def holdingBehind (s : State) (first : Request) (kind : Byte) (arguments : List Byte) : State :=
  { s with commands := { s.commands with
      slots := [{ request := first, pending := true }, { request := request kind arguments, pending := false }]
      freeCredits := 2 } }

/-- The pending COMMIT with tag 4. -/
def pendingCommit : Request := { tag := 4, kind := 0x04, arguments := [] }

/-- A state in which that COMMIT is pending, with the request given behind it. -/
def committing (s : State) (kind : Byte) (arguments : List Byte) : State :=
  let t := holdingBehind s pendingCommit kind arguments
  { t with config := { t.config with pendingCommit := some 4 } }

/-! ## The tables of the data sheet -/

/-- Section 9.1: the check of the nine bytes, and of an empty run. -/
theorem test_frameCheck_examples :
    frameCheck [0x31, 0x32, 0x33, 0x34, 0x35, 0x36, 0x37, 0x38, 0x39] = 0x29B1 ∧ frameCheck [] = 0xFFFF := by
  decide +kernel

/-- R10 and R12: the position of a slot of resolution 12 and offset 300, offset and truncated, and truncated alone when
REWRITTEN. -/
theorem test_position_corrected :
    let r := { SlotRecord.empty with resolution := 12, positionOffset := 300 }
    let m : Sample := ⟨9, .scalar, 0, 0, 65400, 0, 0, 0⟩
    correctedPosition r m = 160 ∧ correctedPosition r { m with marks := 0x40 } = 65392 := by decide +kernel

/-- R11 and R13: the examples of the tables. -/
theorem test_components_corrected :
    let r := { SlotRecord.empty with offsetA := 2047, offsetB := 300, gainB := 1100 }
    let m : Sample := ⟨7, .pair, 0, 0, 0, 0, 32000, -12000⟩
    correctedA r m = 32767 ∧ correctedB r m = -12568 ∧ envelopeMetric 19850 (-12568) = 8422 ∧
      envelopeMetric (-32768) (-32768) = 32768 := by decide +kernel

/-- Section 9.2 and R192: a byte on the lane, its least significant bit first. -/
theorem test_sendByte : sendByte 0x28 = [false, false, false, false, true, false, true, false, false, true] := by decide

/-- R190: a run whose start the receiver has seen when the initialisation period begins is delivered as an early one, the run
behind it is not. -/
theorem test_receiver_marks_early_run :
    ({ LaneReceiver.idle with bytes := [1] }.periodBegins.receive
        (List.replicate 20 true ++ sendFrame [0x28])).map Run.early = [true, false] := by decide +kernel

/-! ## Single commands -/

theorem test_powerOn_samples_straps :
    (after (.powerOn 9 1000) running).pins.strap = 9 ∧ (after (.powerOn 9 999) running).pins.strap = 6 := by
  decide +kernel

/-- R194: RESET_N low through the end of power-on reset keeps the part in reset until it is released. -/
theorem test_powerOn_with_reset_low :
    let s := after (.powerOn 9 1000) (after (.resetEntry 10) (after .supplyOutOfLimits running))
    s.pins.phase = .pinReset ∧ (after (.resetRelease 9) s).pins.phase = .initialising := by decide +kernel

theorem test_resetEntry_negates_lines :
    let s := { monitoring with lines := { triggers := 6, fault := true } }
    (after (.resetEntry 10) s).lines = .negated ∧ (after (.resetEntry 9) s).lines.triggers = 6 := by decide +kernel

theorem test_resetRelease_restores_credits :
    let s := after (.resetEntry 10) (holding running 0x0D [])
    (after (.resetRelease 31) s).commands.freeCredits = 4 ∧ (after (.resetRelease 31) s).pins.strap = 31 := by
  decide +kernel

theorem test_supplyOutOfLimits_needs_power_on :
    let s := after .supplyOutOfLimits running
    (after (.resetRelease 3) s).pins.phase = .powerOnReset ∧ (after (.powerOn 3 1000) s).pins.phase = .initialising := by
  decide +kernel

/-- R194: CP_TX carries the start bit behind the idle it leaves, and is high in reset. -/
theorem test_cpTx_high_in_reset :
    let s := inboundOf { running with frames := { running.frames with cpTicks := 20 } } [.report]
    s.cpTx = false ∧ (after .supplyOutOfLimits s).cpTx = true := by decide +kernel

theorem test_initialisationEnd_runs : (after .initialisationEnd State.reset).pins.phase = .running := by decide +kernel

/-- R157: an MGMT frame to the part takes a holding slot and a credit and is not forwarded. -/
theorem test_frameReceivedCp_takes_mgmt :
    let t := after (.frameReceivedCp (mgmtRun 3 0x0D [])) running
    t.commands.freeCredits = 3 ∧ t.frames.outbound = [] ∧
      t.commands.slots = [{ request := ⟨3, 0x0D, []⟩, pending := false }] := by decide +kernel

/-- R190: a run begun before the initialisation period is not received. -/
theorem test_frameReceivedCp_early_not_received :
    after (.frameReceivedCp { openRun 5 [] with early := true }) State.reset = State.reset := by decide +kernel

/-- Section 4.3: an OPEN out of sequence from CLOSED posts CYCLE_SKIP, and CYCLE_SHORT before it. -/
theorem test_frameReceivedCp_takes_open :
    let s := { monitoring with cycle := { monitoring.cycle with link := .closed, deadlineTimer := none } }
    let t := after (.frameReceivedCp (openRun 815 [])) s
    t.queue.records.map EventRecord.detail = [.cycleShort 40, .cycleSkip 813 815] ∧ t.cycle.link = .opened := by
  decide +kernel

/-- The worked example of chapter 1, step (a), the slot in TRACKING: the position written, the marks, the record. -/
theorem test_frameReceivedSp_rewrites_sample :
    let s := slotAs monitoring 5 fun d => { d with health := .tracking, hold := 0, validTotal := 41006 }
    let t := after (.frameReceivedSp (pairRun 7 1 812 64503 20000 (-12000))) s
    (t.slot 5).validTotal = 41007 ∧ (t.slot 5).lastPosition = some (164, 812) ∧ (t.slot 5).health = .tracking ∧
      t.frames.inbound.map InboundFrame.bytes =
        [(Frame.mk 0x20 7 [0x81, 0x03, 0x2C, 0x00, 0xA4, 0xC3, 0x4E, 0x20, 0xD1, 0x20]).bytes] := by decide +kernel

/-- The worked example of chapter 3, step 2: a position inside the core window sets the latched entry and drives TRG1. -/
theorem test_frameReceivedSp_sets_entry :
    let t := after (.frameReceivedSp (scalarRun 9 0 812 1040 0)) monitoring
    t.entry 20 = ⟨.inWindow, .set⟩ ∧ t.entry 21 = ⟨.outWindow, .idle⟩ ∧ t.lines.triggers = 2 ∧
      t.queue.records.map EventRecord.detail = [.entrySet 20 2 1040] := by decide +kernel

theorem test_frameSentCp_counts_received_only :
    (after .frameSentCp (inboundOf running [.forwarded, .report])).frames.counters.forwardedInbound = 1 ∧
      (after .frameSentCp (inboundOf running [.report])).frames.counters.forwardedInbound = 0 := by decide +kernel

theorem test_frameSentSp_counts : (after .frameSentSp (outboundOf running 2)).frames.counters.forwardedOutbound = 1 := by
  decide +kernel

/-- R185: a held OPEN is taken once three end frames are left. -/
theorem test_openHoldRelease_takes_open :
    let held := { run := openRun 5 [], handled := false }
    let s := inboundOf { running with frames := { running.frames with outbound := [held] } } [.report, .closeReceived, .report]
    (after .openHoldRelease s).cycle.currentCycle = some 5 ∧
      (after .openHoldRelease (inboundOf s [.report, .report, .report, .report])).cycle.currentCycle = none := by
  decide +kernel

/-- Section 4.4: the end by deadline posts CLOSE_MISSED and places a REPORT and a synthesized CLOSE. -/
theorem test_closeDeadlineExpiry_ends_cycle :
    let t := after .closeDeadlineExpiry running
    let u := after .closeDeadlineExpiry { monitoring with channels := .initial, matcher := .initial }
    t.cycle.link = .waiting ∧ u.cycle.link = .closed ∧ u.cycle.counters.deadlineEnds = 1 ∧
      u.frames.inbound.map InboundFrame.cls = [.report, .closeSynthesized] := by decide +kernel

/-- The worked example of chapter 2, a partner pair at the end of cycle 201: a difference of 80 raises both mismatch counts. -/
theorem test_closeDeadlineExpiry_checks_partners :
    let s := slotAs (slotAs monitoring 8 fun _ => { standing .tracking 1100 with indication := true }) 9 fun _ =>
      { standing .tracking 1180 with indication := true }
    let t := after .closeDeadlineExpiry s
    (t.slot 8).mismatch = 1 ∧ (t.slot 9).mismatch = 1 ∧ (t.slot 9).health = .suspect := by decide +kernel

/-- R91: a stall faults the slots that are judged, and asserts FAULT_N. -/
theorem test_periodMaximumExpiry_stalls :
    let t := after .periodMaximumExpiry
      { monitoring with cycle := { monitoring.cycle with
          link := .closed, deadlineTimer := none, periodTimer := some 30000 } }
    t.cycle.link = .stalled ∧ (t.slot 2).health = .faulted .stall ∧ (t.slot 3).health = .unused ∧ t.lines.fault = true := by
  decide +kernel

/-- R92: a second edge of a cycle is counted in the capture slot. -/
theorem test_captureEdge_fills_slot :
    (after .captureEdge (after .captureEdge monitoring)).cycle.captureSlot = some ⟨812, 40, 1⟩ := by decide +kernel

/-- R195: the third high sample qualifies the edge; a low one before it makes none. -/
theorem test_captureLineChange_third_sample :
    let s := { monitoring with pins := { monitoring.pins with qualifier := .rising 2 } }
    (after (.captureLineChange true) s).cycle.captureSlot = some ⟨812, 40, 0⟩ ∧
      (after (.captureLineChange false) s).pins.qualifier = .low ∧
      (after (.captureLineChange false) s).cycle.captureSlot = none := by decide +kernel

/-- R195: samples are a tick apart, at the level CAPTURE keeps: high found once, the edge falls due two ticks later; two commands
in one tick are one sample. -/
theorem test_captureLineChange_samples_each_tick :
    let s := after (.captureLineChange true) monitoring
    (stepped (stepped s)).pins.qualifier = .rising 2 ∧
      (stepped (stepped (stepped (stepped s)))).cycle.captureSlot = some ⟨812, 42, 0⟩ ∧
      (after (.captureLineChange true) s).pins.qualifier = .rising 1 := by decide +kernel

theorem test_readEntry_reads_link :
    (after .readEntry (holding monitoring 0x01 [0, 2, 0])).commands.responses.map Response.data =
      [[0, 2, 0, 0x27, 0x10, 0, 0x4E, 0x20, 0, 0x75, 0x30]] := by decide +kernel

theorem test_writeShadow_writes_link :
    (after .writeShadow (holding running 0x02 [2, 0, 0x12, 0x34, 0, 0, 1, 0, 0, 2])).config.bankB.link =
      { closeDeadline := 0x1234, periodMinimum := 1, periodMaximum := 2 } := by decide +kernel

theorem test_syncShadow_copies :
    (after .syncShadow (holding monitoring 0x03 [])).config.bankB.link.closeDeadline = 10000 := by decide +kernel

theorem test_commit_pends_and_keeps_slot :
    let t := after .commit (holding running 0x04 [])
    t.config.pendingCommit = some 9 ∧ t.commands.responses = [] ∧ t.commands.slots.map Holding.pending = [true] := by
  decide +kernel

theorem test_abortCommit_answers_commit_first :
    let t := after .abortCommit (committing running 0x05 [4])
    t.config.pendingCommit = none ∧ t.commands.responses.map Response.tag = [4, 9] := by decide +kernel

theorem test_setMode_pends : (after .setMode (holding running 0x06 [2])).config.pendingMode = some (.monitor, 9) := by
  decide +kernel

/-- R63: SET with condition IN is deferred, with condition OUT cleared. -/
theorem test_ackEvent_by_condition :
    let s := holding monitoring 0x08 [20]
    (after .ackEvent (s.withEntry 20 ⟨.inWindow, .set⟩)).entry 20 = ⟨.inWindow, .deferred⟩ ∧
      (after .ackEvent (s.withEntry 20 ⟨.outWindow, .set⟩)).entry 20 = ⟨.outWindow, .idle⟩ := by decide +kernel

/-- R43: a latched fault goes to ACQUIRING; one that recovers by itself is refused NOT_LATCHED. -/
theorem test_ackChannel_latched_only :
    let s := holding monitoring 0x09 [2]
    ((after .ackChannel (slotAs s 2 fun d => d.enterFaulted .rate)).slot 2).health = .acquiring ∧
      (after .ackChannel (slotAs s 2 fun d => d.enterFaulted .lost)).commands.responses.map Response.reason =
        [.notLatched] := by decide +kernel

theorem test_readChannel_reads_slot :
    (after .readChannel (holding monitoring 0x0C [9])).commands.responses.map Response.data =
      [[4, 0, 1, 0, 0, 0, 0, 0, 1, 0x04, 0x1A, 0x03, 0x2B, 0, 0, 0, 0, 0]] := by decide +kernel

theorem test_readStatus_length :
    (after .readStatus (holding monitoring 0x0D [])).commands.responses.map (fun r => r.data.length) = [56] := by
  decide +kernel

theorem test_clearCounters_keeps_counts :
    let s := slotAs (holding monitoring 0x0E []) 9 fun d => { d with validTotal := 7 }
    let t := after .clearCounters s
    (t.slot 9).validTotal = 0 ∧ (t.slot 9).missing = 1 := by decide +kernel

theorem test_restart_keeps_banks :
    let t := after .restart (holding monitoring 0x0F [])
    t.config.mode = .standby ∧ t.config.bankA.link.closeDeadline = 10000 ∧ t.commands.freeCredits = 3 ∧
      t.reports.lastNumber = 255 := by decide +kernel

theorem test_unknownRequest_refused :
    (after .unknownRequest (holding running 0x07 [])).commands.responses.map (fun r => (r.kind, r.reason)) =
      [(0x07, .unknownRequest)] := by decide +kernel

/-! ## Witnesses: a state and operands that meet the hypotheses of each statement, clause by clause -/

/-- TickAdvancesTimers: out of reset, and at the last tick before each timer's happening; in reset. -/
theorem witness_TickAdvancesTimers :
    (running.pending = [] ∧ running.isAwake = true ∧ running.releaseDue = false ∧ running.pins.edgeDue = false) ∧
    (let s := { monitoring with cycle := { monitoring.cycle with deadlineTimer := some 1, periodTimer := some 29999 } }
     s.pending = [] ∧ s.isAwake = true ∧ s.releaseDue = false ∧ s.pins.edgeDue = false ∧
       (stepped s).pending = [.closeDeadlineExpiry, .periodMaximumExpiry]) ∧
    (let s := { running with pins := { running.pins with resetLow := 9 } }
     s.releaseDue = false ∧ s.pins.edgeDue = false ∧ (stepped s).pending = [.resetEntry 10]) ∧
    (after .supplyOutOfLimits running).isAwake = false := by decide +kernel

/-- TickAdvancesTimers, the Command Unit: a READ_STATUS behind a PENDING COMMIT one tick short of 500 and at it; the COMMIT alone. -/
theorem witness_TickAdvancesTimers_request :
    (let at' (n : Nat) : State :=
       let s := holdingBehind running pendingCommit 0x0D []
       { s with commands := { s.commands with requestTimer := n } }
     (at' 499).pending = [] ∧ (at' 499).isAwake = true ∧ (at' 499).releaseDue = false ∧ (at' 499).pins.edgeDue = false ∧
       (at' 499).commands.slots =
         [{ request := pendingCommit, pending := true }] ++ { request := request 0x0D [], pending := false } :: [] ∧
       (stepped (at' 498)).pending = [] ∧ (stepped (at' 499)).pending = [.readStatus]) ∧
    (let s := { running with commands := { running.commands with
       slots := [{ request := pendingCommit, pending := true }], requestTimer := 499 } }
     (∀ h ∈ s.commands.slots, h.pending = true) ∧ (stepped s).pending = []) := by decide +kernel

/-- TickAdvancesTimers, the relay buffers: a frame of one byte at CP and of three at SP, one tick short of their last stop bit and
at it; the lane in the idle before a frame and at its first start bit. -/
theorem witness_TickAdvancesTimers_frames :
    (let sending (cp sp : Nat) : State :=
       let s := outboundOf (inboundOf running [.report]) 1
       { s with frames := { s.frames with cpTicks := cp, spTicks := sp } }
     (sending 29 49).pending = [] ∧ (sending 29 49).isAwake = true ∧ (sending 29 49).releaseDue = false ∧
       (sending 29 49).pins.edgeDue = false ∧
       (stepped (sending 28 48)).pending = [] ∧ (stepped (sending 29 48)).pending = [.frameSentCp] ∧
       (stepped (sending 28 49)).pending = [.frameSentSp] ∧
       ((sending 19 19).cpTx = true ∧ (sending 20 20).cpTx = false) ∧
       ((sending 19 19).spTx = true ∧ (sending 20 20).spTx = false)) ∧
    (running.frames.inbound = [] ∧ running.frames.outbound = []) := by decide +kernel

/-- LeavingReset: RESET_N high and low at the end of power-on reset, the clock short, the reset of RESET_N and out of it. -/
theorem witness_LeavingReset :
    1000 ≤ 1000 ∧ 999 < 1000 ∧ running.pins.resetLow < 10 ∧ running.pins.phase ≠ .pinReset ∧
    10 ≤ (after (.resetEntry 10) running).pins.resetLow ∧ (after (.resetEntry 10) running).pins.phase = .pinReset := by
  decide +kernel

/-- EnteringReset: 10 and 9 ticks, out of reset, in power-on reset and in the reset of RESET_N, and a command that is no reset. -/
theorem witness_EnteringReset :
    (10 ≤ 10 ∧ running.isAwake = true) ∧ 9 < 10 ∧
    (after .supplyOutOfLimits running).pins.phase = .powerOnReset ∧
    (after (.resetEntry 10) running).pins.phase = .pinReset ∧ isResetCommand .captureEdge = false := by decide +kernel

/-- InitialisationRelaysUnchanged: an early run; the last free place of each buffer and none free; an intact, a bad and an over-long
run. -/
theorem witness_InitialisationRelaysUnchanged :
    let s := outboundOf (inboundOf State.reset
      [.forwarded, .forwarded, .forwarded, .forwarded, .forwarded, .report, .closeReceived]) 3
    let full := outboundOf (inboundOf State.reset (List.replicate 6 .forwarded)) 4
    ({ badRun with early := true } : Run).early = true ∧ badRun.early = false ∧
    (s.pins.phase = .initialising ∧ s.frames.outbound.length < 4 ∧ s.frames.forwardedCount < 6 ∧
      s.frames.inbound.length < 8) ∧
    (full.pins.phase = .initialising ∧ ¬full.frames.outbound.length < 4 ∧ ¬full.frames.forwardedCount < 6) ∧
    (openRun 5 []).bytes.length ≤ 255 ∧ intactFrame (openRun 5 []) ≠ none ∧
    badRun.bytes.length ≤ 255 ∧ intactFrame badRun = none ∧ 255 < (List.replicate 256 (0 : Byte)).length := by
  decide +kernel

/-- LaneDeliversWhatIsSent: frames of two bytes and of one; and a receiver with a byte in progress, and an idle one, when the
period begins. -/
theorem witness_LaneDeliversWhatIsSent :
    (∀ b ∈ ([[0x28, 0x00], [0xFF]] : List (List Byte)), b ≠ []) ∧
    (∀ r ∈ [({ LaneReceiver.idle with bits := some [] } : LaneReceiver), LaneReceiver.idle],
      (r.periodBegins.receive (List.replicate 30 true ++ sendFrame [0x28])).length = if r.bits.isSome then 2 else 1) := by
  decide +kernel

theorem witness_handlesAtCp : (outboundOf running 3).handlesAtCp (openRun 5 []) := by
  unfold State.handlesAtCp; decide +kernel

/-- OutboundPassThrough: an intact frame for another monitor and a bad run with one place free; a frame behind a held OPEN; an intact
frame and a bad run with no place; a run of 256 bytes. -/
theorem witness_OutboundPassThrough :
    (let f : Frame := ⟨0x18, 7, [1, 2]⟩
     (outboundOf running 3).handlesAtCp (runOf 0x18 7 [1, 2]) ∧ intactFrame (runOf 0x18 7 [1, 2]) = some f ∧
       f.type ≠ typeOpen ∧ ¬(f.type = typeMgmt ∧ running.pins.strap ≠ 0 ∧ f.address = strapByte running.pins.strap)) ∧
    ((outboundOf running 3).handlesAtCp badRun ∧ intactFrame badRun = none) ∧
    (let s := { running with frames := { running.frames with outbound := [{ run := openRun 5 [], handled := false }] } }
     s.pins.phase = .running ∧ s.frames.outbound.length < 4 ∧ (∃ g ∈ s.frames.outbound, g.handled = false)) ∧
    ((outboundOf running 4).isAwake = true ∧ 4 ≤ (outboundOf running 4).frames.outbound.length ∧
      (openRun 5 []).bytes.length ≤ 255 ∧ badRun.bytes.length ≤ 255) ∧
    (running.isAwake = true ∧ 255 < (List.replicate 256 (0 : Byte)).length) := by
  unfold State.handlesAtCp; decide +kernel

/-- InboundPassThrough: a REPORT of another monitor, a SAMPLE in STANDBY and a bad run; with the last place free, and with no
place for a forwarded frame. -/
theorem witness_InboundPassThrough :
    (∀ run ∈ [runOf 0x30 7 [0], scalarRun 9 0 812 5 0, badRun],
      running.pins.phase = .running ∧ run.early = false ∧ run.bytes.length ≤ 255 ∧
        (∀ f ∈ (intactFrame run).toList, f.type ≠ typeClose ∧ ¬(f.type = typeSample ∧ running.config.mode = .monitor))) ∧
    (let s := inboundOf running [.report, .report, .forwarded, .forwarded, .forwarded, .forwarded, .forwarded]
     s.frames.forwardedCount < 6 ∧ s.frames.inbound.length < 8) ∧
    6 ≤ (inboundOf running (List.replicate 6 .forwarded)).frames.forwardedCount ∧
    8 ≤ (inboundOf running (List.replicate 3 .report ++ List.replicate 5 .forwarded)).frames.inbound.length := by
  decide +kernel

/-- FramesDepart: a forwarded frame, a REPORT, and a handled outbound frame at the heads. -/
theorem witness_FramesDepart :
    running.isAwake = true ∧
    (inboundOf running [.forwarded]).frames.inbound = { bytes := [0], cls := .forwarded } :: [] ∧
    (inboundOf running [.report]).frames.inbound = { bytes := [0], cls := .report } :: [] ∧
    (outboundOf running 1).frames.outbound = { run := badRun, handled := true } :: [] := by decide +kernel

/-- OpenHeldAndReleased: four end frames; a malformed OPEN; a held OPEN with three and with four end frames, a frame for another
monitor and a bad run behind it. -/
theorem witness_OpenHeldAndReleased :
    let run := openRun 5 []
    let f : Frame := ⟨0x10, 0, [0, 5, 0]⟩
    let s := inboundOf running [.report, .closeReceived, .report]
    let full := inboundOf running [.report, .closeReceived, .report, .closeReceived]
    let first : OutboundFrame := { run := badRun, handled := true }
    let headed : OutboundFrame := { run, handled := false }
    let behind : List OutboundFrame := [⟨runOf 0x18 7 [1, 2], false⟩, ⟨badRun, false⟩]
    let held (s : State) := { s with frames := { s.frames with outbound := [first] ++ headed :: behind } }
    intactFrame run = some f ∧ f.type = typeOpen ∧
    (full.pins.phase = .running ∧ full.handlesAtCp run ∧ 4 ≤ full.frames.endCount) ∧
    (s.handlesAtCp (runOf 0x10 0 [0, 5]) ∧ s.frames.endCount ≤ 3 ∧
      intactFrame (runOf 0x10 0 [0, 5]) = some ⟨0x10, 0, [0, 5]⟩ ∧ parseOpen [0, 5] = none) ∧
    ((held s).frames.outbound = [first] ++ { run, handled := false } :: behind ∧ (∀ g ∈ [first], g.handled = true) ∧
      (held s).frames.endCount ≤ 3 ∧ 4 ≤ (held full).frames.endCount) ∧
    (∀ g ∈ behind, ∀ h ∈ (intactFrame g.run).toList, h.type ≠ typeOpen ∧
      ¬(h.type = typeMgmt ∧ s.pins.strap ≠ 0 ∧ h.address = strapByte s.pins.strap)) := by
  unfold State.handlesAtCp; decide +kernel

/-- An OPEN taken at once, three end frames waiting, whatever the rest of the state. -/
theorem takesOpen_of (s : State) (hp : s.pins.phase = .running) (hl : s.frames.outbound = [])
    (he : s.frames.endCount ≤ 3) : s.takesOpen (openRun 815 [(6, 255)]) { cycle := 815, acks := [(6, 255)] } := by
  refine ⟨⟨hp, rfl, by simp [hl], by simp [hl], by decide +kernel⟩, he, ⟨0x10, 0, [3, 47, 1, 6, 255]⟩, ?_⟩
  decide +kernel

/-- A state with the link as given, three end frames waiting. -/
def linkAs (link : LinkState) : State :=
  let s := inboundOf monitoring [.report, .closeReceived, .report]
  { s with cycle := { s.cycle with
      link, deadlineTimer := if link = .opened then some 0 else none
      currentCycle := if link = .waiting then none else some 812
      periodTimer := if link = .waiting then none else some 16777215 } }

theorem witness_takesOpen (link : LinkState) :
    (linkAs link).takesOpen (openRun 815 [(6, 255)]) { cycle := 815, acks := [(6, 255)] } :=
  takesOpen_of _ rfl rfl (by cases link <;> decide +kernel)

/-- OpenStartsCycle: a pending commit in MONITOR and in STANDBY, with slots and entries that keep and that change their identity; a
pending mode change to each target, with a configured slot and with none; neither pending. -/
theorem witness_OpenStartsCycle :
    (let s := { linkAs .closed with config := { (linkAs .closed).config with
        bankB := { exampleBank with slots := exampleSlots.set 2 .empty, entries := exampleEntries.set 20 .empty }
        pendingCommit := some 4, pendingMode := some (.standby, 5) } }
     s.takesOpen (openRun 815 [(6, 255)]) { cycle := 815, acks := [(6, 255)] } ∧ s.config.pendingCommit = some 4 ∧
       s.config.pendingMode = some (.standby, 5) ∧ s.config.mode = .monitor ∧
       s.activeBank.slots[2] ≠ s.shadowBank.slots[2] ∧ s.activeBank.slots[5] = s.shadowBank.slots[5] ∧
       s.activeBank.entries[20] ≠ s.shadowBank.entries[20] ∧ s.activeBank.entries[21] = s.shadowBank.entries[21]) ∧
    (let s := { linkAs .waiting with config := { (linkAs .waiting).config with
        mode := .standby, pendingCommit := some 4, pendingMode := some (.monitor, 5) } }
     s.takesOpen (openRun 815 [(6, 255)]) { cycle := 815, acks := [(6, 255)] } ∧ s.config.pendingCommit = some 4 ∧
       s.config.pendingMode = some (.monitor, 5) ∧ s.config.mode = .standby) ∧
    (let s := { linkAs .waiting with config := { (linkAs .waiting).config with
        mode := .standby, pendingMode := some (.monitor, 5) } }
     s.takesOpen (openRun 815 [(6, 255)]) { cycle := 815, acks := [(6, 255)] } ∧ s.config.pendingCommit = none ∧
       (s.slotRecord 2).configured = true ∧
       (∀ i : Fin 32, (({ s with config := { s.config with active := .bankB } } : State).slotRecord i).configured = false)) ∧
    ((linkAs .opened).config.pendingCommit = none ∧ (linkAs .opened).config.pendingMode = none) := by
  refine ⟨⟨takesOpen_of _ rfl rfl (by decide +kernel), rfl, rfl, rfl, by decide +kernel⟩,
    ⟨takesOpen_of _ rfl rfl (by decide +kernel), rfl, rfl, rfl⟩,
    ⟨takesOpen_of _ rfl rfl (by decide +kernel), rfl, rfl, by decide +kernel⟩, rfl, rfl⟩

/-- OpenFromWaiting, with a pair that names the part and the last report number. -/
theorem witness_OpenFromWaiting :
    (linkAs .waiting).takesOpen (openRun 815 [(6, 255)]) { cycle := 815, acks := [(6, 255)] } ∧
    (linkAs .waiting).cycle.link = .waiting ∧ (linkAs .waiting).config.pendingCommit = none ∧
    (linkAs .waiting).config.pendingMode = none :=
  ⟨witness_takesOpen _, rfl, rfl, rfl⟩

/-- OpenChecksPeriodAndNumber, from CLOSED and from STALLED, one place of the queue free. -/
theorem witness_OpenChecksPeriodAndNumber :
    ∀ link, link = .closed ∨ link = .stalled →
      let s := { linkAs link with queue := { EventQueue.initial with
        records := List.replicate 47 ⟨0, 0, 3, .closeLate 0⟩ } }
      s.takesOpen (openRun 815 [(6, 255)]) { cycle := 815, acks := [(6, 255)] } ∧
      s.config.pendingCommit = none ∧ s.config.pendingMode = none ∧
      s.cycle.currentCycle = some 812 ∧ s.cycle.periodTimer = some 16777215 ∧ s.cycle.link = link := by
  intro link h
  rcases h with rfl | rfl <;>
    exact ⟨takesOpen_of _ rfl rfl (by decide +kernel), rfl, rfl, rfl, rfl, rfl⟩

theorem witness_OpenOvertakesCycle :
    (linkAs .opened).takesOpen (openRun 815 [(6, 255)]) { cycle := 815, acks := [(6, 255)] } ∧
    (linkAs .opened).cycle.link = .opened ∧ (linkAs .opened).cycle.currentCycle = some 812 ∧
    (linkAs .opened).cycle.periodTimer = some 16777215 ∧ (linkAs .opened).config.pendingCommit = none ∧
    (linkAs .opened).config.pendingMode = none :=
  ⟨witness_takesOpen _, rfl, rfl, rfl, rfl, rfl⟩

/-- CycleEndsOnce: the CLOSE of the open cycle, and the deadline timer run out. -/
theorem witness_CycleEndsOnce :
    (linkAs .opened).endsCycle (.frameReceivedSp (closeRun 812)) ∧ (linkAs .opened).endsCycle .closeDeadlineExpiry ∧
    (linkAs .opened).cycle.currentCycle = some 812 :=
  ⟨⟨rfl, rfl, 812, rfl, .inr ⟨_, ⟨0x28, 20, [3, 44, 0]⟩, rfl, by decide +kernel⟩⟩,
    ⟨rfl, rfl, 812, rfl, .inl ⟨rfl, rfl⟩⟩, rfl⟩

/-- LateCloseDiscarded: a CLOSE of another cycle; a CLOSE on a CLOSED link; a malformed one with the last place free, and with no
place. -/
theorem witness_LateCloseDiscarded :
    monitoring.pins.phase = .running ∧ (closeRun 811).early = false ∧
    (intactFrame (closeRun 811) = some ⟨0x28, 20, [3, 43, 0]⟩ ∧ parseClose [3, 43, 0] = some 811 ∧
      ¬(monitoring.cycle.link = .opened ∧ monitoring.cycle.currentCycle = some 811)) ∧
    (intactFrame (closeRun 812) = some ⟨0x28, 20, [3, 44, 0]⟩ ∧ parseClose [3, 44, 0] = some 812 ∧
      ¬((linkAs .closed).cycle.link = .opened ∧ (linkAs .closed).cycle.currentCycle = some 812)) ∧
    (intactFrame (runOf 0x28 20 [3, 44, 1]) = some ⟨0x28, 20, [3, 44, 1]⟩ ∧ parseClose [3, 44, 1] = none ∧
      (let s := inboundOf monitoring (List.replicate 2 .report ++ List.replicate 5 .forwarded)
       s.frames.forwardedCount < 6 ∧ s.frames.inbound.length < 8) ∧
      ¬(inboundOf monitoring (List.replicate 6 .forwarded)).frames.forwardedCount < 6) := by decide +kernel

theorem witness_StallFaultsSlots :
    let s := { linkAs .closed with cycle := { (linkAs .closed).cycle with periodTimer := some 30000 } }
    s.pins.phase = .running ∧ s.cycle.link = .closed ∧ s.activeBank.link.periodMaximum ≠ 0 ∧
    s.cycle.periodTimer = some s.activeBank.link.periodMaximum ∧ s.cycle.deadlineTimer = none := by decide +kernel

/-- CaptureEdgeTaken: the slot empty, filled with its count at the end, the link not OPEN, the initialisation period. -/
theorem witness_CaptureEdgeTaken :
    (monitoring.pins.phase = .running ∧ monitoring.cycle.link = .opened ∧ monitoring.cycle.currentCycle = some 812 ∧
      monitoring.cycle.periodTimer = some 40 ∧ monitoring.cycle.captureSlot = none) ∧
    ({ monitoring with cycle := { monitoring.cycle with captureSlot := some ⟨812, 3, 255⟩ } }.cycle.captureSlot =
      some ⟨812, 3, 255⟩) ∧
    ((linkAs .stalled).pins.phase = .running ∧ (linkAs .stalled).cycle.link ≠ .opened) ∧
    State.reset.pins.phase = .initialising := by decide +kernel

/-- CaptureQualifies: out of reset, with this tick's sample taken and still to be taken, in each state of the qualifier, on an idle
part with CAPTURE high and low. -/
theorem witness_CaptureQualifies :
    let pinned (q : Qualifier) (high sampled : Bool) : State :=
      { running with pins := { running.pins with qualifier := q, capture := high, captureSampled := sampled } }
    (∀ q ∈ [Qualifier.low, .rising 1, .rising 2, .high], ∀ high ∈ [true, false], ∀ sampled ∈ [true, false],
      (pinned q high sampled).isAwake = true ∧ (pinned q high sampled).pending = [] ∧ (pinned q high sampled).releaseDue = false ∧
        (pinned q high sampled).pins.captureSampled = sampled ∧ (pinned q high sampled).pins.qualifier = q) ∧
    State.reset.isAwake = true ∧ State.reset.pins.qualifier = .high := by decide +kernel

/-- CorrectionFormed: both ends of the resolutions and of the components. -/
theorem witness_CorrectionFormed :
    (let r := { SlotRecord.empty with resolution := 10 }
     10 ≤ r.resolution ∧ r.resolution ≤ 16) ∧
    (10 ≤ SlotRecord.empty.resolution ∧ SlotRecord.empty.resolution ≤ 16) ∧
    (let m : Sample := ⟨7, .pair, 0, 0, 0, 0x40, -32768, -32768⟩
     (-32768 ≤ m.a) ∧ m.a ≤ 32767 ∧ -32768 ≤ m.b ∧ m.b ≤ 32767 ∧
       envelopeMetric (correctedA .empty m) (correctedB .empty m) = 32768) := by decide +kernel

/-- The frame and the sample of a run, as the statements on samples name them. -/
def sampleOf (run : Run) : Option (Frame × Sample) :=
  (intactFrame run).bind fun f => (parseSample f.address f.body).map fun m => (f, m)

/-- The tests of takesSample and findsValid, computed. -/
def validFor (s : State) (run : Run) (i : Fin 32) : Bool :=
  match sampleOf run with
  | none => false
  | some (f, m) =>
    decide (s.pins.phase = .running ∧ run.early = false ∧ s.config.mode = .monitor ∧ f.type = typeSample) &&
    decide (classify s m = .valid i)

/-- What `validFor` computes is what the statements assume. -/
theorem validFor_meets (s : State) (run : Run) (i : Fin 32) (h : validFor s run i = true) :
    ∃ f m, sampleOf run = some (f, m) ∧ s.takesSample run f m ∧ s.findsValid m i := by
  unfold validFor at h
  split at h
  · cases h
  · rename_i f m hs
    refine ⟨f, m, hs, ?_⟩
    simp only [Bool.and_eq_true, decide_eq_true_eq] at h
    obtain ⟨⟨hp, he, hm, ht⟩, hc⟩ := h
    unfold sampleOf at hs
    obtain ⟨f', hf, hs⟩ := Option.bind_eq_some_iff.mp hs
    obtain ⟨m', hm', hx⟩ := Option.map_eq_some_iff.mp hs
    cases hx
    refine ⟨⟨hp, he, hm, hf, ht, hm'⟩, ?_⟩
    unfold classify at hc
    split at hc
    · cases hc
    · rename_i j hj
      split_ifs at hc with h1 h2 h3
      cases hc
      push Not at h1 h2
      exact ⟨hj, h1.1, h1.2, h2, by simpa using h3⟩

/-- SampleNotValid: a malformed, an unmapped, a stale, a kind-mismatched and a duplicate SAMPLE, the last place free and none. -/
theorem witness_SampleNotValid :
    let s := inboundOf (slotAs monitoring 8 fun d => { d with indication := true })
      (List.replicate 2 .report ++ List.replicate 5 .forwarded)
    let full := inboundOf s (List.replicate 6 .forwarded)
    let outcome (run : Run) := (sampleOf run).map fun x => classify s x.2
    s.pins.phase = .running ∧ s.config.mode = .monitor ∧ s.frames.forwardedCount < 6 ∧ s.frames.inbound.length < 8 ∧
    full.pins.phase = .running ∧ full.config.mode = .monitor ∧ ¬full.frames.forwardedCount < 6 ∧
    (intactFrame (runOf 0x20 9 [0, 3]) = some ⟨0x20, 9, [0, 3]⟩ ∧ parseSample 9 [0, 3] = none) ∧
    outcome (scalarRun 31 3 812 5 0) = some .unmapped ∧ outcome (scalarRun 9 0 811 5 0) = some (.stale 2) ∧
    outcome (pairRun 9 0 812 5 1 1) = some (.kindMismatch 2) ∧ outcome (scalarRun 11 0 812 5 0) = some (.duplicate 8) := by
  decide +kernel

/-- ValidSampleFrame: the last place free, none free, a slot that rewrites and one that does not, and a latched fault. -/
theorem witness_ValidSampleFrame :
    let run := scalarRun 9 0 812 1200 0
    (let s := inboundOf monitoring (List.replicate 2 .report ++ List.replicate 5 .forwarded)
     validFor s run 2 = true ∧ s.frames.forwardedCount < 6 ∧ s.frames.inbound.length < 8) ∧
    (let s := inboundOf monitoring (List.replicate 6 .forwarded)
     validFor s run 2 = true ∧ 6 ≤ s.frames.forwardedCount) ∧
    (validFor monitoring (pairRun 7 1 812 64503 20000 (-12000)) 5 = true ∧ (monitoring.slotRecord 5).rewrite = true ∧
      (monitoring.slotRecord 2).rewrite = false) ∧
    (let s := slotAs monitoring 2 fun d => d.enterFaulted .rate
     validFor s run 2 = true ∧ (s.slot 2).health = .faulted .rate) := by decide +kernel

/-- TrackedSampleJudged: a step of 401 with the count short of and at the persistence, a step of 400, and no position of the
cycle before; a PAIR slot with an excursion short of and at the limit, and with a good sample at the decay run. -/
theorem witness_TrackedSampleJudged :
    let m (p : Word) : Sample := ⟨9, .scalar, 0, 812, p, 0, 0, 0⟩
    let r := monitoring.slotRecord 2
    (validFor monitoring (scalarRun 9 0 812 1200 0) 2 = true ∧
      sampleOf (scalarRun 9 0 812 1200 0) = some (⟨0x20, 9, [0, 3, 44, 4, 176, 0]⟩, m 1200)) ∧
    (validFor monitoring (scalarRun 9 0 812 1201 0) 2 = true ∧
      sampleOf (scalarRun 9 0 812 1201 0) = some (⟨0x20, 9, [0, 3, 44, 4, 177, 0]⟩, m 1201)) ∧
    (monitoring.slot 2).health = .tracking ∧ (monitoring.slot 2).lastPosition = some (800, (m 0).cycle - 1) ∧
    r.rateLimit < (correctedPosition r (m 1201) - 800).toInt.natAbs ∧
    (correctedPosition r (m 1200) - 800).toInt.natAbs ≤ r.rateLimit ∧
    (monitoring.slot 2).rate + 1 ≠ r.ratePersistence ∧
    (let s := slotAs monitoring 2 fun d => { d with health := .suspect, rate := 1 }
     validFor s (scalarRun 9 0 812 1201 0) 2 = true ∧ (s.slot 2).rate + 1 = r.ratePersistence ∧
       (s.slot 2).health = .suspect ∧ (s.slot 2).lastPosition = some (800, 811)) ∧
    (let s := slotAs monitoring 2 fun d => { d with lastPosition := some (800, 810) }
     validFor s (scalarRun 9 0 812 1201 0) 2 = true ∧ (s.slot 2).health = .tracking) ∧
    (∀ e ∈ [0, 2], let s := slotAs monitoring 5 fun d => { d with health := .suspect, envelope := e, goodRun := 3, missing := 1 }
      validFor s (pairRun 7 1 812 64503 32767 32767) 5 = true ∧ validFor s (pairRun 7 1 812 64503 20000 (-12000)) 5 = true ∧
        ((s.slot 5).envelope + 1 = (s.slotRecord 5).envelopeLimit ↔ e = 2) ∧
        (s.slotRecord 5).decayRun ≤ (s.slot 5).goodRun + 1) := by decide +kernel

/-- SettlingSampleJudged: PAIR, excursions below and at the envelope limit, good samples with a hold of 2 and of 1, with and
without a decay; SCALAR, with a hold of 1. -/
theorem witness_SettlingSampleJudged :
    let meets (s : State) (run : Run) (i : Fin 32) : Bool := validFor s run i && decide ((s.slot i).health = .settling)
    let excursion (run : Run) : Option Bool := (sampleOf run).map fun x =>
      isExcursion (monitoring.slotRecord 5) (envelopeMetric (correctedA (monitoring.slotRecord 5) x.2)
        (correctedB (monitoring.slotRecord 5) x.2))
    let good := pairRun 7 1 812 64503 20000 (-12000)
    let away := pairRun 7 1 812 64503 32767 32767
    excursion good = some false ∧ excursion away = some true ∧ (monitoring.slotRecord 5).kind = .pair ∧
    (meets monitoring away 5 = true ∧ (monitoring.slot 5).envelope + 1 ≠ (monitoring.slotRecord 5).envelopeLimit ∧
      0 < (monitoring.slotRecord 5).settlingHold) ∧
    (let s := slotAs monitoring 5 fun d => { d with envelope := 2 }
     meets s away 5 = true ∧ (s.slot 5).envelope + 1 = (s.slotRecord 5).envelopeLimit) ∧
    (meets monitoring good 5 = true ∧ 1 < (monitoring.slot 5).hold) ∧
    (let s := slotAs monitoring 5 fun d => { d with hold := 1, goodRun := 3, envelope := 1 }
     meets s good 5 = true ∧ (s.slot 5).hold ≤ 1 ∧ (s.slot 5).goodRun + 1 = (s.slotRecord 5).decayRun) ∧
    (let s := slotAs monitoring 2 fun d => { d with health := .settling, hold := 1 }
     meets s (scalarRun 9 0 812 5 0) 2 = true) := by decide +kernel

/-- ValidSampleEntersSettling: ACQUIRING and both causes, SCALAR and PAIR, with a settling hold and without one; and an excursion at
an envelope limit of 1. -/
theorem witness_ValidSampleEntersSettling :
    (∀ h ∈ [Health.acquiring, .faulted .lost, .faulted .stall],
      let s := slotAs (slotAs monitoring 2 fun _ => { SlotState.cleared with health := h }) 5 fun _ =>
        { SlotState.cleared with health := h }
      validFor s (scalarRun 9 0 812 5 0) 2 = true ∧ (s.slot 2).lastPosition = none ∧ 0 < (s.slotRecord 2).settlingHold ∧
        validFor s (pairRun 7 1 812 64503 20000 (-12000)) 5 = true ∧ (s.slot 5).lastPosition = none) ∧
    (let s := slotAs monitoring 8 fun _ => { SlotState.cleared with health := .acquiring }
     validFor s (scalarRun 11 0 812 5 0) 8 = true ∧ (s.slotRecord 8).settlingHold = 0) ∧
    (let s := slotAs monitoring 5 fun _ => { SlotState.cleared with health := .acquiring, envelope := 2 }
     validFor s (pairRun 7 1 812 64503 32767 32767) 5 = true ∧ (s.slot 5).envelope + 1 = (s.slotRecord 5).envelopeLimit) := by
  decide +kernel

/-- An open cycle whose deadline timer has run out ends by its CLOSE and by the deadline, and is overtaken by an OPEN. -/
theorem cycleEnds_of (s : State) (hp : s.pins.phase = .running) (hl : s.cycle.link = .opened)
    (hc : s.cycle.currentCycle = some 812) (ho : s.frames.outbound = []) (he : s.frames.endCount ≤ 3)
    (hk : s.config.pendingCommit = none) (hm : s.config.pendingMode = none) (hd : s.cycle.deadlineTimer = some 0) :
    s.endsCycle (.frameReceivedSp (closeRun 812)) ∧ s.endsCycle .closeDeadlineExpiry ∧
    s.overtakenBy (.frameReceivedCp (openRun 815 [(6, 255)])) :=
  ⟨⟨hp, hl, 812, hc, .inr ⟨_, ⟨0x28, 20, [3, 44, 0]⟩, rfl, by decide +kernel⟩⟩, ⟨hp, hl, 812, hc, .inl ⟨rfl, hd⟩⟩,
    hl, hk, hm, _, _, rfl, takesOpen_of s hp ho he⟩

/-- The example with the deadline timer run out. -/
def ending : State := { monitoring with cycle := { monitoring.cycle with deadlineTimer := some 0 } }

/-- A state with slots of the example changed ends as `ending` does. -/
theorem ending_ends (f : Vector SlotState 32) :
    let s := { ending with channels := { ending.channels with slots := f } }
    s.endsCycle (.frameReceivedSp (closeRun 812)) ∧ s.endsCycle .closeDeadlineExpiry ∧
    s.overtakenBy (.frameReceivedCp (openRun 815 [(6, 255)])) :=
  cycleEnds_of _ rfl rfl rfl rfl (Nat.zero_le 3) rfl rfl rfl

/-- MissingSampleAtCycleEnd, the endings by `ending_ends`: a slot with its sample; missing counts short of and at the limit, in
SETTLING and in TRACKING; a slot in ACQUIRING; a partner pair that is not checked. -/
theorem witness_MissingSampleAtCycleEnd :
    (∀ j, ¬ending.arePartners 2 j ∧ ¬ending.arePartners 5 j) ∧
    (ending.arePartners 9 8 ∧ (∀ j, ending.arePartners 9 j → j = 8) ∧ (ending.slot 9).indication = false) ∧
    ((slotAs ending 2 fun d => { d with indication := true }).slot 2).indication = true ∧
    ((ending.slot 2).indication = false ∧ (ending.slot 2).health = .tracking ∧
      (ending.slot 2).missing + 1 ≠ (ending.slotRecord 2).missingLimit) ∧
    ((ending.slot 5).indication = false ∧ (ending.slot 5).health = .settling ∧
      (ending.slot 5).missing + 1 ≠ (ending.slotRecord 5).missingLimit) ∧
    (let s := slotAs ending 2 fun d => { d with health := .suspect, missing := 2 }
     (s.slot 2).indication = false ∧ (s.slot 2).missing + 1 = (s.slotRecord 2).missingLimit) ∧
    ((slotAs ending 2 fun d => { d with health := .acquiring }).slot 2).health = .acquiring := by
  unfold State.arePartners; decide +kernel

/-- PartnersCheckedAtCycleEnd, the endings by `ending_ends`: differences of 51 with counts short of and at the persistence, and of
50. -/
theorem witness_PartnersCheckedAtCycleEnd :
    let pair (q : Word) (count : Nat) := slotAs (slotAs ending 8 fun _ => { standing .tracking 1000 with indication := true })
      9 fun _ => { standing .suspect q with indication := true, mismatch := count }
    let r := ending.slotRecord 8
    (8 : Fin 32) < 9 ∧ ending.arePartners 8 9 ∧
    (let meets (q : Word) (s : State) : Prop :=
       (s.slot 8).health = .tracking ∧ (s.slot 9).health = .suspect ∧ (s.slot 8).indication = true ∧
       (s.slot 9).indication = true ∧ (s.slot 8).lastPosition = some (1000, 811) ∧ (s.slot 9).lastPosition = some (q, 811)
     meets 1051 (pair 1051 0) ∧ meets 1051 (pair 1051 1) ∧ meets 1050 (pair 1050 1)) ∧
    r.mismatchTolerance < ((1000 : Word) - 1051).toInt.natAbs ∧ ¬r.mismatchTolerance < ((1000 : Word) - 1050).toInt.natAbs ∧
    ((pair 1051 1).slot 9).mismatch + 1 = r.mismatchPersistence ∧
    ¬(((pair 1051 0).slot 8).mismatch + 1 = r.mismatchPersistence ∨
      ((pair 1051 0).slot 9).mismatch + 1 = r.mismatchPersistence) := by
  unfold State.arePartners; decide +kernel

/-- ExtendedWindowContainsCore: the widest window, and the hysteresis 0. -/
theorem witness_ExtendedWindowContainsCore :
    let r := { EntryRecord.empty with lo := 65000, hi := 56809, hysteresis := 4095 }
    (r.hi - r.lo).toNat + 2 * r.hysteresis ≤ 65535 ∧ r.inCore 3 = true ∧ EntryRecord.empty.hysteresis = 0 ∧
      (EntryRecord.empty.hi - EntryRecord.empty.lo).toNat + 2 * EntryRecord.empty.hysteresis ≤ 65535 := by decide +kernel

/-- EntriesEvaluated: a position in the core window, in the hysteresis and beyond it, for a latched and a level entry, INSIDE;
and an OUTSIDE entry. -/
theorem witness_EntriesEvaluated :
    let r := monitoring.entryRecord 20
    let outside := { r with form := .outside }
    (let meets (p : Word) : Prop := validFor monitoring (scalarRun 9 0 812 p 0) 2 = true ∧
       ((after (.frameReceivedSp (scalarRun 9 0 812 p 0)) monitoring).slot 2).health = .tracking
     meets 1000 ∧ meets 999 ∧ meets 949) ∧
    (r.used = true ∧ r.slot = 2 ∧ r.mode = .latched ∧ (monitoring.entryRecord 21).mode = .level ∧ r.form = .inside) ∧
    (r.inCore 1000 = true ∧ (r.inCore 999 = false ∧ r.inExtended 999 = true) ∧ r.inExtended 949 = false) ∧
    (outside.form = .outside ∧ outside.inCore 1000 = true) ∧
    (monitoring.entryRecord 0).used = false ∧
    (∀ l ∈ [Latch.idle, .set, .deferred], ((monitoring.withEntry 20 ⟨.inWindow, l⟩).entry 20).latch = l) ∧
    (let s := slotAs monitoring 2 fun d => { d with rate := 1 }
     let run := scalarRun 9 0 812 1201 0
     validFor s run 2 = true ∧ ((after (.frameReceivedSp run) s).slot 2).health.inPair = false) := by
  decide +kernel

/-- A full queue whose youngest record of the lowest priority is its middle one. -/
def fullQueue : EventQueue where
  records := List.replicate 24 ⟨0, 0, 1, .closeLate 0⟩ ++ [⟨1, 0, 1, .closeLate 1⟩] ++
    List.replicate 23 ⟨2, 0, 3, .closeLate 2⟩
  nextSequence := 65535
  lost := 65535

/-- PostingKeepsOrDisplaces: one place free; full and of no higher priority; full and displacing. -/
theorem witness_PostingKeepsOrDisplaces :
    { fullQueue with records := fullQueue.records.tail }.records.length < 48 ∧ 48 ≤ fullQueue.records.length ∧
    (∀ x ∈ fullQueue.records, (1 : Fin 4) ≤ x.priority) ∧
    (fullQueue.records = List.replicate 24 ⟨0, 0, 1, .closeLate 0⟩ ++ ⟨1, 0, 1, .closeLate 1⟩ ::
        List.replicate 23 ⟨2, 0, 3, .closeLate 2⟩ ∧
      (1 : Fin 4) < 2 ∧ (∀ y ∈ List.replicate 23 (⟨2, 0, 3, .closeLate 2⟩ : EventRecord), y.priority ≠ 1)) := by
  decide +kernel

theorem witness_QueueStaysInPostingOrder :
    exec (.frameReceivedSp (closeRun 5)) running = .next (after (.frameReceivedSp (closeRun 5)) running) ∧
    isResetCommand (.frameReceivedSp (closeRun 5)) = false ∧ Instr.frameReceivedSp (closeRun 5) ≠ .restart :=
  ⟨rfl, rfl, by decide⟩

/-- BuildRepeatsThenDraws: a Sent Set at its capacity with an item sent four times. -/
theorem witness_BuildRepeatsThenDraws :
    let s := { running with reports := { ReportBuilder.initial with
      sentEvents := List.replicate 8 ⟨⟨0, 0, 3, .closeLate 0⟩, 4⟩
      sentResponses := List.replicate 2 ⟨⟨1, 4, .done, .none, []⟩, 4⟩ } }
    s.reports.sentEvents.length ≤ 8 ∧ s.reports.sentResponses.length ≤ 2 := by decide +kernel

/-- ManagementFrameTaken: a body too short, a free slot, both slots held, no credit. -/
theorem witness_ManagementFrameTaken :
    let full := { running with commands := { CommandUnit.initial with
      slots := List.replicate 2 { request := pendingCommit, pending := true }, freeCredits := 2 } }
    let spent := { running with commands := { CommandUnit.initial with freeCredits := 0 } }
    (running.handlesAtCp (mgmtRun 3 13 []) ∧ intactFrame (mgmtRun 3 13 []) = some ⟨0x18, 6, [3, 13]⟩ ∧
      running.pins.strap ≠ 0 ∧ (6 : Byte) = strapByte running.pins.strap ∧
      running.commands.slots.length < 2 ∧ 0 < running.commands.freeCredits) ∧
    (running.handlesAtCp (runOf 0x18 6 [3]) ∧ intactFrame (runOf 0x18 6 [3]) = some ⟨0x18, 6, [3]⟩) ∧
    (full.handlesAtCp (mgmtRun 3 13 []) ∧ 2 ≤ full.commands.slots.length) ∧
    (spent.handlesAtCp (mgmtRun 3 13 []) ∧ spent.commands.freeCredits = 0) := by
  unfold State.handlesAtCp; decide +kernel

/-- The request of `holding` is the next, whatever the state. -/
theorem isNext_holding (s : State) (kind : Byte) (arguments : List Byte) (h : s.pins.phase = .running) :
    (holding s kind arguments).isNext (request kind arguments) [] [] :=
  ⟨h, rfl, by simp⟩

/-- The request of `holdingBehind` is the next, behind the PENDING one. -/
theorem isNext_holdingBehind (s : State) (first : Request) (kind : Byte) (arguments : List Byte)
    (h : s.pins.phase = .running) :
    (holdingBehind s first kind arguments).isNext (request kind arguments) [{ request := first, pending := true }] [] :=
  ⟨h, rfl, by simp⟩

/-- RefusedBeforeOwner: an unknown kind; a READ_STATUS with an argument, a WRITE_SHADOW with none. -/
theorem witness_RefusedBeforeOwner :
    ((holding running 0x07 []).isNext (request 0x07 []) [] [] ∧ requestKindOf 0x07 = none) ∧
    ((holding running 0x0D [0]).isNext (request 0x0D [0]) [] [] ∧ requestKindOf 0x0D = some .readStatus ∧
      lengthFits .readStatus [0] = false) ∧
    (requestKindOf 0x02 = some .writeShadow ∧ lengthFits .writeShadow [] = false) :=
  ⟨⟨isNext_holding _ _ _ rfl, by decide +kernel⟩, ⟨isNext_holding _ _ _ rfl, by decide +kernel, by decide +kernel⟩,
    by decide +kernel, by decide +kernel⟩

/-- ReadsAnswered: READ_STATUS; READ_CHANNEL at both ends of the slots and beyond; READ_ENTRY at both ends of each table and
beyond, of both banks, and with values that name none. -/
theorem witness_ReadsAnswered :
    (∀ kind arguments, (holding monitoring kind arguments).isNext (request kind arguments) [] []) ∧
    (request 0x0D []).kind = RequestKind.readStatus.code ∧ (request 0x0C [31]).kind = RequestKind.readChannel.code ∧
    (31 : Byte).toNat = (31 : Fin 32).val ∧ 32 ≤ (32 : Byte).toNat ∧
    (request 0x01 [0, 0, 31]).kind = RequestKind.readEntry.code ∧ (63 : Byte).toNat = (63 : Fin 64).val ∧
    2 ≤ (2 : Byte).toNat ∧ 3 ≤ (3 : Byte).toNat ∧
    (BankName.bankA = monitoring.config.active ∧ BankName.bankB = monitoring.config.active.other) ∧
    64 ≤ (64 : Byte).toNat ∧ (1 : Byte) ≠ 0 :=
  ⟨fun _ _ => isNext_holding _ _ _ rfl, by decide +kernel⟩

/-- WriteShadowReplacesRecord: each table at its last index and beyond, a commit pending, content in and out of range. -/
theorem witness_WriteShadowReplacesRecord :
    (∀ kind arguments, (holding monitoring kind arguments).isNext (request kind arguments) [] []) ∧
    (∀ kind arguments, (committing monitoring kind arguments).isNext (request kind arguments)
      [{ request := pendingCommit, pending := true }] []) ∧
    RequestKind.writeShadow.code = 0x02 ∧ monitoring.config.pendingCommit = none ∧
    (committing monitoring 2 []).config.pendingCommit.isSome = true ∧
    (∀ table ∈ [Table.slot, .entry, .link], tableOf table.code = some table) ∧
    lengthFits .writeShadow (0 :: 31 :: SlotRecord.empty.content) = true ∧
    parseSlotRecord SlotRecord.empty.content = some .empty ∧ parseSlotRecord (List.replicate 29 0) = none ∧
    lengthFits .writeShadow (1 :: 63 :: EntryRecord.empty.content) = true ∧
    parseEntryRecord EntryRecord.empty.content = some .empty ∧ parseEntryRecord (List.replicate 12 255) = none ∧
    lengthFits .writeShadow (2 :: 0 :: LinkRecord.empty.content) = true ∧
    parseLinkRecord LinkRecord.empty.content = some .empty ∧ parseLinkRecord (List.replicate 8 0) = none ∧
    (31 : Byte).toNat < Table.slot.size ∧ Table.slot.size ≤ (32 : Byte).toNat ∧ (63 : Byte).toNat < Table.entry.size ∧
    Table.entry.size ≤ (64 : Byte).toNat ∧ (0 : Byte).toNat < Table.link.size ∧ Table.link.size ≤ (1 : Byte).toNat :=
  ⟨fun _ _ => isNext_holding _ _ _ rfl, fun _ _ => isNext_holdingBehind _ _ _ _ rfl, by decide +kernel⟩

/-- SyncShadowCopiesActive: no commit pending, and one pending. -/
theorem witness_SyncShadowCopiesActive :
    ((holding monitoring 0x03 []).isNext (request 0x03 []) [] [] ∧ RequestKind.syncShadow.code = 0x03 ∧
      (holding monitoring 0x03 []).config.pendingCommit = none) ∧
    ((committing monitoring 0x03 []).isNext (request 0x03 []) [{ request := pendingCommit, pending := true }] [] ∧
      (committing monitoring 0x03 []).config.pendingCommit.isSome = true) :=
  ⟨⟨isNext_holding _ _ _ rfl, rfl, rfl⟩, isNext_holdingBehind _ _ _ _ rfl, rfl⟩

/-- CommitValidatesShadow: one pending, an empty shadow bank that passes, and one that fails at its last record. -/
theorem witness_CommitValidatesShadow :
    ((committing monitoring 0x04 []).isNext (request 0x04 []) [{ request := pendingCommit, pending := true }] [] ∧
      RequestKind.commit.code = 0x04 ∧ (committing monitoring 0x04 []).config.pendingCommit.isSome = true) ∧
    ((holding monitoring 0x04 []).isNext (request 0x04 []) [] [] ∧
      (holding monitoring 0x04 []).config.pendingCommit = none ∧
      validate (holding monitoring 0x04 []).shadowBank 6 = none) ∧
    validate { Bank.empty with link := { LinkRecord.empty with periodMaximum := 10000 } } 6 = some (.link, 0, 15) ∧
    validate exampleBank 6 = none ∧ validate exampleBank 9 = some (.slot, 2, 2) ∧
    validate { exampleBank with entries := exampleEntries.set 63 { exampleEntries[20] with slot := 31 } } 6 =
      some (.entry, 63, 11) :=
  ⟨⟨isNext_holdingBehind _ _ _ _ rfl, rfl, rfl⟩, ⟨isNext_holding _ _ _ rfl, rfl, by decide +kernel⟩, by decide +kernel,
    by decide +kernel, by decide +kernel, by decide +kernel⟩

/-- AbortCommitCancels: the pending commit named; the last completed one; neither. -/
theorem witness_AbortCommitCancels :
    ((committing running 0x05 [4]).isNext (request 0x05 [4]) [{ request := pendingCommit, pending := true }] [] ∧
      RequestKind.abortCommit.code = 0x05 ∧ (committing running 0x05 [4]).config.pendingCommit = some 4 ∧
      [({ request := pendingCommit, pending := true } : Holding)] = [] ++ { request := pendingCommit, pending := true } :: [] ∧
      pendingCommit.kind = RequestKind.commit.code) ∧
    (let s := holding { running with config := { ConfigController.initial with lastCommit := some 4 } } 0x05 [4]
     s.isNext (request 0x05 [4]) [] [] ∧ s.config.pendingCommit ≠ some 4 ∧ s.config.lastCommit = some 4) ∧
    (let s := committing running 0x05 [5]
     s.isNext (request 0x05 [5]) [{ request := pendingCommit, pending := true }] [] ∧ s.config.pendingCommit ≠ some 5 ∧
       s.config.lastCommit ≠ some 5) :=
  ⟨⟨isNext_holdingBehind _ _ _ _ rfl, rfl, rfl, rfl, rfl⟩,
    ⟨isNext_holding _ _ _ rfl, by decide +kernel, rfl⟩,
    isNext_holdingBehind _ _ _ _ rfl, by decide +kernel, by decide +kernel⟩

/-- SetModeJudged: a target that is no mode, a change pending, the current mode, the other mode. -/
theorem witness_SetModeJudged :
    (∀ target, (holding running 0x06 [target]).isNext (request 0x06 [target]) [] []) ∧
    RequestKind.setMode.code = 0x06 ∧ ((0 : Byte) ≠ 1 ∧ (0 : Byte) ≠ 2 ∧ (3 : Byte) ≠ 1 ∧ (3 : Byte) ≠ 2) ∧
    running.config.pendingMode = none ∧ Mode.standby = running.config.mode ∧ Mode.monitor ≠ running.config.mode ∧
    (let s := holding { running with config := { ConfigController.initial with pendingMode := some (.monitor, 4) } } 0x06 [1]
     s.isNext (request 0x06 [1]) [] [] ∧ s.config.pendingMode.isSome = true) :=
  ⟨fun _ => isNext_holding _ _ _ rfl, rfl, by decide, rfl, rfl, by decide +kernel, isNext_holding _ _ _ rfl, rfl⟩

/-- AckEventActs: STANDBY; indexes 63 and 64; an unused, a level and a latched entry in each latch state. -/
theorem witness_AckEventActs :
    (∀ s : State, s.pins.phase = .running → ∀ index, (holding s 0x08 [index]).isNext (request 0x08 [index]) [] []) ∧
    RequestKind.ackEvent.code = 0x08 ∧ running.config.mode = .standby ∧ monitoring.config.mode = .monitor ∧
    64 ≤ (64 : Byte).toNat ∧ (63 : Byte).toNat = (63 : Fin 64).val ∧ (monitoring.entryRecord 63).used = false ∧
    ((monitoring.entryRecord 21).used = true ∧ (monitoring.entryRecord 21).mode = .level) ∧
    ((monitoring.entryRecord 20).used = true ∧ (monitoring.entryRecord 20).mode = .latched ∧
      (monitoring.entry 20).latch = .idle) ∧
    ((monitoring.withEntry 20 ⟨.inWindow, .deferred⟩).entry 20).latch = .deferred ∧
    (monitoring.withEntry 20 ⟨.inWindow, .set⟩).entry 20 = ⟨.inWindow, .set⟩ ∧
    (monitoring.withEntry 20 ⟨.unknown, .set⟩).entry 20 = ⟨.unknown, .set⟩ :=
  ⟨fun _ h _ => isNext_holding _ _ _ h, by decide +kernel⟩

/-- AckChannelReleases: STANDBY; indexes 31 and 32; an unconfigured slot, a slot not FAULTED, one with a cause that recovers by
itself, one with a latched cause. -/
theorem witness_AckChannelReleases :
    (∀ s : State, s.pins.phase = .running → ∀ index, (holding s 0x09 [index]).isNext (request 0x09 [index]) [] []) ∧
    RequestKind.ackChannel.code = 0x09 ∧ running.config.mode = .standby ∧ monitoring.config.mode = .monitor ∧
    32 ≤ (32 : Byte).toNat ∧ (31 : Byte).toNat = (31 : Fin 32).val ∧ (monitoring.slotRecord 31).configured = false ∧
    (monitoring.slotRecord 2).configured = true ∧ (monitoring.slot 2).health.isFaulted = false ∧
    ((slotAs monitoring 2 fun d => d.enterFaulted .stall).slot 2).health = .faulted .stall ∧
    ((slotAs monitoring 2 fun d => d.enterFaulted .envelope).slot 2).health = .faulted .envelope :=
  ⟨fun _ h _ => isNext_holding _ _ _ h, by decide +kernel⟩

theorem witness_ClearCountersClears :
    (holding monitoring 0x0E []).isNext (request 0x0E []) [] [] ∧ RequestKind.clearCounters.code = 0x0E :=
  ⟨isNext_holding _ _ _ rfl, rfl⟩

theorem witness_RestartRestarts :
    (committing monitoring 0x0F []).isNext (request 0x0F []) [{ request := pendingCommit, pending := true }] [] ∧
      RequestKind.restart.code = 0x0F :=
  ⟨isNext_holdingBehind _ _ _ _ rfl, rfl⟩

/-- The state of the witnesses for the laws that every step keeps: MONITOR, cycle 812 open, its CLOSE in front. -/
def lawful : State := monitoring.withPending [.frameReceivedSp (closeRun 812)]

/-- Its step ends the cycle. -/
theorem witness_KeptByStep_step : step lawful = .next (stepped lawful) ∧ (stepped lawful).cycle.link = .closed :=
  ⟨rfl, by decide +kernel⟩

theorem witness_LinesLawKept : lawful.linesObeyLaws := by
  constructor
  · decide +kernel
  · have h : lawful.someFaulted = false := by decide +kernel
    simp only [State.someFaulted, List.any_eq_false, List.mem_finRange, true_implies] at h
    constructor
    · intro hf; exact absurd hf (by decide +kernel)
    · rintro ⟨-, -, ⟨i, cause, hc⟩ | hc⟩
      · exact absurd (by rw [hc]; rfl) (h i)
      · exact absurd hc (by decide +kernel)

theorem witness_CreditLawKept : lawful.obeysCreditLaw := by unfold State.obeysCreditLaw; decide +kernel
theorem witness_CapacitiesKept : lawful.withinCapacities := by unfold State.withinCapacities; decide +kernel
theorem witness_InboundBoundKept : lawful.inboundBounded := by unfold State.inboundBounded; decide +kernel
theorem witness_ConfigurationLawKept : lawful.configurationLawful := by
  have hm : lawful.config.pendingMode = none := by decide +kernel
  exact ⟨by decide +kernel, by decide +kernel, fun mode tag h => by rw [hm] at h; exact absurd h (by simp)⟩
theorem witness_HealthLawKept : lawful.healthCoherent := by
  unfold State.healthCoherent SlotState.coherent; decide +kernel
theorem witness_CountsStayBelowLimits :
    lawful.configurationLawful ∧ lawful.healthCoherent ∧ lawful.countsBelowLimits :=
  ⟨witness_ConfigurationLawKept, witness_HealthLawKept, by
    unfold State.countsBelowLimits SlotState.belowLimits; decide +kernel⟩
theorem witness_EntryLawKept : lawful.configurationLawful ∧ lawful.entriesCoherent :=
  ⟨witness_ConfigurationLawKept, by unfold State.entriesCoherent EntryState.coherent; decide +kernel⟩
theorem witness_LinkLawKept : lawful.linkCoherent := by unfold State.linkCoherent; decide +kernel

/-- ListenOnlyKept, with strap address 0 and an MGMT frame in front. -/
theorem witness_ListenOnlyKept :
    let s := (after .initialisationEnd State.reset).withPending [.frameReceivedCp (runOf 0x18 0 [1, 13])]
    s.listensOnly ∧ s.pins.strap = 0 ∧ step s = .next (stepped s) :=
  ⟨fun _ => by decide +kernel, by decide +kernel, rfl⟩

/-- BanksAndModeChangeOnlySo: a swap by an OPEN, and a write to the shadow bank. -/
theorem witness_BanksAndModeChangeOnlySo :
    (let s := { running with config := { ConfigController.initial with pendingCommit := some 4 } }
     let c := Instr.frameReceivedCp (openRun 5 [])
     exec c s = .next (after c s) ∧ isResetCommand c = false ∧ (after c s).config.active ≠ s.config.active) ∧
    (let s := holding running 0x02 (2 :: 0 :: LinkRecord.empty.content.set 0 0x12)
     exec .writeShadow s = .next (after .writeShadow s) ∧ isResetCommand .writeShadow = false ∧
       (after .writeShadow s).config.bankB ≠ s.config.bankB) :=
  ⟨⟨rfl, rfl, by decide +kernel⟩, rfl, rfl, by decide +kernel⟩

end Sys2Proof.Tests
end

