-- ==== Sys2Proof/Proofs/ChannelHealth.lean ====
section
/-! PROOF. How a request that is next executes and completes, what ACK_CHANNEL does case by case, and its statement (R43,
R160). -/

namespace Sys2Proof.Machine

/-! ## Bytes that name a kind or an index -/

/-- A kind's code names the kind. -/
@[simp] theorem requestKindOf_code (k : RequestKind) : requestKindOf k.code = some k := by
  cases k <;> rfl

/-- A byte is an index of a table of `n` records when it lies below `n`. -/
theorem indexOf_eq_some_iff {n : Nat} {b : Byte} {i : Fin n} : indexOf n b = some i ↔ b.toNat = i.val := by
  unfold indexOf
  split_ifs with h
  · simp [Fin.ext_iff]
  · simp only [false_iff]
    omega

/-- A byte at or beyond the size of a table is no index of it. -/
theorem indexOf_eq_none_iff {n : Nat} {b : Byte} : indexOf n b = none ↔ n ≤ b.toNat := by
  simp [indexOf]

/-! ## The request that is next (R160) -/

section
variable {s : State} {q : Request} {before after : List Holding}

theorem State.isNext.running (h : s.isNext q before after) : s.pins.phase = .running := h.1

theorem State.isNext.awake (h : s.isNext q before after) : s.isAwake = true := by
  simp [State.isAwake, h.running]

theorem State.isNext.next_eq (h : s.isNext q before after) : s.commands.next = some q := by
  obtain ⟨-, hslots, hpending⟩ := h
  have hbefore : before.find? (fun h => !h.pending) = none := by simpa using hpending
  simp [CommandUnit.next, hslots, List.find?_append, hbefore]

/-- Its slot becomes EMPTY, and its response stands behind those held. -/
theorem State.isNext.finish_respond (h : s.isNext q before after) (r : Response) :
    s.commands.finish.respond r = s.commands.answered before after [r] := by
  obtain ⟨-, hslots, hpending⟩ := h
  have herase : s.commands.slots.eraseP (fun h => !h.pending) = before ++ after := by
    rw [hslots, List.eraseP_append_right _ (by simpa using hpending)]
    simp
  simp [CommandUnit.finish, CommandUnit.respond, CommandUnit.answered, herase]

/-- A request with arguments of the length its kind requires is carried out by the command of that kind. -/
theorem State.isNext.executeAs_eq (h : s.isNext q before after) {k : RequestKind} (hkind : q.kind = k.code)
    (hlength : lengthFits k q.arguments = true) (run : Request → State → State) :
    executeAs (some k) run s = run q s := by
  simp [executeAs, h.running, h.next_eq, hkind, hlength]

/-- A refusal changes the Command Unit alone. -/
theorem State.isNext.refuse_eq (h : s.isNext q before after) (reason : Reason) :
    refuse q reason s = { s with commands := s.commands.answered before after [q.refused reason] } := by
  rw [← h.finish_respond]
  rfl

/-- Done after an operation that left the Command Unit as it was, the request changes the Command Unit alone. -/
theorem State.isNext.done_eq (h : s.isNext q before after) (data : List Byte) {t : State} (ht : t.commands = s.commands) :
    done q data t = { t with commands := s.commands.answered before after [q.done data] } := by
  rw [← h.finish_respond, ← ht]
  rfl

end

/-! ## The release of a latched fault -/

/-- A completed request leaves the lines in agreement with their laws. -/
theorem State.linesObeyLaws.done {t : State} (h : t.linesObeyLaws) (q : Request) (data : List Byte) :
    (done q data t).linesObeyLaws :=
  h.congr (by simp) (by simp) (by simp) (by simp) (by simp) (by simp) (by simp)

@[simp] theorem releaseSlot_queue (i : Fin 32) (cause : FaultCause) (s : State) :
    (releaseSlot i cause s).queue =
      s.queue.post s.cycleNumber 3 (.health i .faulted .acquiring (.fault cause)) := by
  simp [releaseSlot, State.withSlot]

@[simp] theorem releaseSlot_counters (i : Fin 32) (cause : FaultCause) (s : State) :
    (releaseSlot i cause s).channels.counters = s.channels.counters := by
  simp [releaseSlot]

theorem releaseSlot_obeys (i : Fin 32) (cause : FaultCause) {s : State} (h : s.isAwake = true) :
    (releaseSlot i cause s).linesObeyLaws :=
  settleLines_obeys _ (by simpa [State.withSlot] using h)

/-! ## ACK_CHANNEL, test by test (R43) -/

section
variable {s : State} {q : Request} {index : Byte} {i : Fin 32}

theorem runAckChannel_standby (harg : q.arguments = [index]) (hmode : s.config.mode = .standby) :
    runAckChannel q s = refuse q .wrongMode s := by
  simp [runAckChannel, harg, hmode]

theorem runAckChannel_badIndex (harg : q.arguments = [index]) (hmode : s.config.mode = .monitor)
    (hindex : 32 ≤ index.toNat) : runAckChannel q s = refuse q .badIndex s := by
  simp [runAckChannel, harg, hmode, indexOf_eq_none_iff.mpr hindex]

theorem runAckChannel_unconfigured (harg : q.arguments = [index]) (hmode : s.config.mode = .monitor)
    (hindex : index.toNat = i.val) (hconf : (s.slotRecord i).configured = false) :
    runAckChannel q s = refuse q .badIndex s := by
  simp [runAckChannel, harg, hmode, indexOf_eq_some_iff.mpr hindex, hconf]

/-- On a configured slot in MONITOR, the health state decides. -/
theorem runAckChannel_configured (harg : q.arguments = [index]) (hmode : s.config.mode = .monitor)
    (hindex : index.toNat = i.val) (hconf : (s.slotRecord i).configured = true) :
    ((∀ cause, (s.slot i).health ≠ .faulted cause) → runAckChannel q s = refuse q .notFaulted s) ∧
    ((s.slot i).health = .faulted .lost ∨ (s.slot i).health = .faulted .stall →
      runAckChannel q s = refuse q .notLatched s) ∧
    (∀ cause, (s.slot i).health = .faulted cause → cause ≠ .lost → cause ≠ .stall →
      runAckChannel q s = done q [] (releaseSlot i cause s)) := by
  simp only [runAckChannel, harg, hmode, indexOf_eq_some_iff.mpr hindex, hconf, reduceCtorEq, if_false]
  refine ⟨fun hnot => ?_, ?_, fun cause hfaulted hlost hstall => ?_⟩
  · cases hhealth : (s.slot i).health with
    | faulted cause => exact absurd hhealth (hnot cause)
    | _ => rfl
  · rintro (hhealth | hhealth) <;> rw [hhealth]
  · rw [hfaulted]
    cases cause with
    | lost => exact absurd rfl hlost
    | stall => exact absurd rfl hstall
    | _ => rfl

/-- The request ACK_CHANNEL that is next is carried out. -/
theorem exec_ackChannel {before after : List Holding} (h : s.isNext q before after)
    (hkind : q.kind = RequestKind.ackChannel.code) (harg : q.arguments = [index]) :
    exec .ackChannel s = .next (runAckChannel q s) := by
  have hrun := h.executeAs_eq hkind (by simp [lengthFits, harg]) runAckChannel
  exact congrArg Host.Outcome.next hrun

end

/-! ## The statement -/

/-- Settles O46: the tests of R43 in their order, and the release of a latched fault. -/
theorem ackChannelReleases : Obligations.AckChannelReleases := by
  intro s q before after index hnext hkind harg
  rw [exec_ackChannel hnext hkind harg]
  dsimp only
  have refused : ∀ reason, runAckChannel q s = refuse q reason s →
      (.next (runAckChannel q s) : Host.Outcome State Fault Refusal) =
        .next { s with commands := s.commands.answered before after [q.refused reason] } :=
    fun reason h => by rw [h, hnext.refuse_eq]
  refine ⟨fun hmode => ?_, fun hmode hindex => ?_, fun hmode i hindex => ⟨fun hconf => ?_, fun hconf => ?_⟩⟩
  · exact refused _ (runAckChannel_standby harg hmode)
  · exact refused _ (runAckChannel_badIndex harg hmode hindex)
  · exact refused _ (runAckChannel_unconfigured harg hmode hindex hconf)
  obtain ⟨hnotFaulted, hnotLatched, hlatched⟩ := runAckChannel_configured harg hmode hindex hconf
  refine ⟨fun h => refused _ (hnotFaulted h), fun h => refused _ (hnotLatched h), fun cause hfaulted hlost hstall => ?_⟩
  refine ⟨_, rfl, ?_⟩
  rw [hlatched cause hfaulted hlost hstall]
  refine ⟨by simp, fun j hj => by simp [hj], by simp, (releaseSlot_obeys i cause hnext.awake).done q [], ?_⟩
  rw [hnext.done_eq [] (t := releaseSlot i cause s) (by simp)]
  simp [State.cycleNumber]

end Sys2Proof.Machine
end

