-- ==== Sys2Proof/Proofs/EventTable.lean ====
section
/-! PROOF. What ACK_EVENT does case by case, and its statement (R62, R63). -/

namespace Sys2Proof.Machine

/-! ## A refused request that is next -/

/-- A command whose execution ends in a refusal changes the Command Unit alone. -/
theorem State.isNext.next_eq_refused {s t : State} {q : Request} {before after : List Holding} {reason : Reason}
    (h : s.isNext q before after) (ht : t = refuse q reason s) :
    (.next t : Host.Outcome State Fault Refusal) =
      .next { s with commands := s.commands.answered before after [q.refused reason] } := by
  rw [ht, h.refuse_eq]

/-! ## The acknowledgement of an entry that is SET -/

/-- An entry cleared by its acknowledgement: its latch IDLE, ENTRY_CLEARED(ACKNOWLEDGED) at its priority, the lines settled
(R63). -/
def clearAcknowledged (i : Fin 64) (s : State) : State :=
  settleLines (post (s.entryRecord i).priority (.entryCleared i (s.entryRecord i).slot .acknowledged)
    (s.withEntry i { s.entry i with latch := .idle }))

theorem acknowledgeEntry_inWindow (q : Request) {i : Fin 64} {s : State} (hin : (s.entry i).condition = .inWindow) :
    acknowledgeEntry q i s = done q [2] (s.withEntry i { condition := .inWindow, latch := .deferred }) := by
  simp [acknowledgeEntry, hin]

theorem acknowledgeEntry_notInWindow (q : Request) {i : Fin 64} {s : State} (hout : (s.entry i).condition ≠ .inWindow) :
    acknowledgeEntry q i s = done q [1] (clearAcknowledged i s) := if_neg hout

@[simp] theorem clearAcknowledged_keeps (i : Fin 64) (s : State) :
    (clearAcknowledged i s).frames = s.frames ∧ (clearAcknowledged i s).cycle = s.cycle ∧
    (clearAcknowledged i s).channels = s.channels ∧ (clearAcknowledged i s).reports = s.reports ∧
    (clearAcknowledged i s).commands = s.commands ∧ (clearAcknowledged i s).config = s.config ∧
    (clearAcknowledged i s).pins = s.pins ∧ (clearAcknowledged i s).pending = s.pending := by
  simp [clearAcknowledged]

@[simp] theorem clearAcknowledged_entry (i j : Fin 64) (s : State) :
    (clearAcknowledged i s).entry j = if j = i then { s.entry i with latch := .idle } else s.entry j := by
  simp [clearAcknowledged]

@[simp] theorem clearAcknowledged_queue (i : Fin 64) (s : State) :
    (clearAcknowledged i s).queue = s.queue.post s.cycleNumber (s.entryRecord i).priority
      (.entryCleared i (s.entryRecord i).slot .acknowledged) := by
  simp [clearAcknowledged]

theorem clearAcknowledged_obeys (i : Fin 64) {s : State} (h : s.isAwake = true) :
    (clearAcknowledged i s).linesObeyLaws :=
  settleLines_obeys _ (by simpa using h)

/-! ## ACK_EVENT, test by test (R62) -/

section
variable {s : State} {q : Request} {index : Byte} {i : Fin 64}

theorem runAckEvent_standby (harg : q.arguments = [index]) (hmode : s.config.mode = .standby) :
    runAckEvent q s = refuse q .wrongMode s := by
  simp [runAckEvent, harg, hmode]

theorem runAckEvent_badIndex (harg : q.arguments = [index]) (hmode : s.config.mode = .monitor)
    (hindex : 64 ≤ index.toNat) : runAckEvent q s = refuse q .badIndex s := by
  simp [runAckEvent, harg, hmode, indexOf_eq_none_iff.mpr hindex]

theorem runAckEvent_unused (harg : q.arguments = [index]) (hmode : s.config.mode = .monitor)
    (hindex : index.toNat = i.val) (hunused : (s.entryRecord i).used = false) :
    runAckEvent q s = refuse q .badIndex s := by
  simp [runAckEvent, harg, hmode, indexOf_eq_some_iff.mpr hindex, hunused]

theorem runAckEvent_level (harg : q.arguments = [index]) (hmode : s.config.mode = .monitor)
    (hindex : index.toNat = i.val) (hused : (s.entryRecord i).used = true) (hlevel : (s.entryRecord i).mode = .level) :
    runAckEvent q s = refuse q .notLatched s := by
  simp [runAckEvent, harg, hmode, indexOf_eq_some_iff.mpr hindex, hused, hlevel]

/-- On a used LATCHED entry in MONITOR, the latch state decides (R63). -/
theorem runAckEvent_latched (harg : q.arguments = [index]) (hmode : s.config.mode = .monitor)
    (hindex : index.toNat = i.val) (hused : (s.entryRecord i).used = true)
    (hlatched : (s.entryRecord i).mode = .latched) :
    ((s.entry i).latch = .idle → runAckEvent q s = refuse q .notLatched s) ∧
    ((s.entry i).latch = .deferred → runAckEvent q s = done q [2] s) ∧
    ((s.entry i).latch = .set → runAckEvent q s = acknowledgeEntry q i s) := by
  simp only [runAckEvent, harg, hmode, indexOf_eq_some_iff.mpr hindex, hused, hlatched, reduceCtorEq, if_false]
  refine ⟨?_, ?_, ?_⟩ <;> intro hlatch <;> rw [hlatch]

/-- The request ACK_EVENT that is next is carried out. -/
theorem exec_ackEvent {before after : List Holding} (h : s.isNext q before after)
    (hkind : q.kind = RequestKind.ackEvent.code) (harg : q.arguments = [index]) :
    exec .ackEvent s = .next (runAckEvent q s) := by
  have hrun := h.executeAs_eq hkind (by simp [lengthFits, harg]) runAckEvent
  exact congrArg Host.Outcome.next hrun

end

/-! ## The statement -/

/-- Settles O45: the tests of R62 in their order, and the table of R63 by latch state and condition. -/
theorem ackEventActs : Obligations.AckEventActs := by
  intro s q before after index hnext hkind harg
  rw [exec_ackEvent hnext hkind harg]
  dsimp only
  refine ⟨fun hmode => ?_, fun hmode hindex => ?_, fun hmode i hindex =>
    ⟨fun hunused => ?_, fun hused hlevel => ?_, fun hused hlatched => ?_⟩⟩
  · exact hnext.next_eq_refused (runAckEvent_standby harg hmode)
  · exact hnext.next_eq_refused (runAckEvent_badIndex harg hmode hindex)
  · exact hnext.next_eq_refused (runAckEvent_unused harg hmode hindex hunused)
  · exact hnext.next_eq_refused (runAckEvent_level harg hmode hindex hused hlevel)
  obtain ⟨hidle, hdeferred, hset⟩ := runAckEvent_latched harg hmode hindex hused hlatched
  refine ⟨fun h => hnext.next_eq_refused (hidle h), fun h => ?_, fun h => ⟨_, rfl, ?_⟩⟩
  · rw [hdeferred h, hnext.done_eq [2] rfl]
  rw [hset h]
  by_cases hcond : (s.entry i).condition = .inWindow
  · rw [acknowledgeEntry_inWindow q hcond]
    refine ⟨fun j hj => by simp [hj], fun _ => ⟨by simp, ?_⟩, fun hout => absurd hcond hout⟩
    rw [hnext.done_eq [2] (by simp)]
    rfl
  · rw [acknowledgeEntry_notInWindow q hcond]
    refine ⟨fun j hj => by simp [hj], fun hin => absurd hin hcond,
      fun _ => ⟨by simp, (clearAcknowledged_obeys i hnext.awake).done q [1], ?_⟩⟩
    rw [hnext.done_eq [1] (t := clearAcknowledged i s) (by simp)]
    simp [State.cycleNumber]

end Sys2Proof.Machine
end

