-- ==== Sys2Proof/Proofs/CommitAndMode.lean ====
section
/-! PROOF. What ABORT_COMMIT and SET_MODE do case by case, and their statements (R143, R150). -/

namespace Sys2Proof.Machine

/-! ## The byte that names a mode (R150) -/

theorem modeOf_eq_some {b : Byte} {m : Mode} (h : (b = 1 ∧ m = .standby) ∨ (b = 2 ∧ m = .monitor)) :
    modeOf b = some m := by
  obtain ⟨rfl, rfl⟩ | ⟨rfl, rfl⟩ := h
  · rfl
  · rfl

theorem modeOf_eq_none {b : Byte} (hone : b ≠ 1) (htwo : b ≠ 2) : modeOf b = none := by
  rw [modeOf, if_neg hone, if_neg htwo]

/-! ## The holding slots (R143, R160) -/

/-- The oldest WAITING slot becomes PENDING where it stands. -/
theorem CommandUnit.suspend_append {before : List Holding} (hbefore : ∀ h ∈ before, h.pending = true) (q : Request)
    (after : List Holding) :
    CommandUnit.suspend (before ++ { request := q, pending := false } :: after) =
      before ++ { request := q, pending := true } :: after := by
  induction before with
  | nil => rfl
  | cons h rest ih =>
    obtain ⟨hpending, hrest⟩ := List.forall_mem_cons.mp hbefore
    simp [CommandUnit.suspend, hpending, ih hrest]

/-- The oldest PENDING slot of the kind given becomes EMPTY. -/
theorem CommandUnit.release_eq {c : CommandUnit} {older rest : List Holding} {h : Holding} {kind : Byte}
    (hslots : c.slots = older ++ h :: rest) (hpending : h.pending = true) (hkind : h.request.kind = kind)
    (hother : ∀ g ∈ older, g.request.kind ≠ kind) :
    c.release kind = { c with slots := older ++ rest } := by
  have herase : c.slots.eraseP (fun g => g.pending && decide (g.request.kind = kind)) = older ++ rest := by
    rw [hslots, List.eraseP_append_right _ fun g hg => by simp [hother g hg]]
    simp [hpending, hkind]
  simp [CommandUnit.release, herase]

/-- A request that is next and suspended keeps its slot, PENDING now, and posts no response. -/
theorem State.isNext.suspendRequest_eq {s t : State} {q : Request} {before after : List Holding}
    (h : s.isNext q before after) (ht : t.commands = s.commands) :
    suspendRequest t = { t with commands := { s.commands with
      slots := before ++ { request := q, pending := true } :: after, requestTimer := 0 } } := by
  obtain ⟨-, hslots, hpending⟩ := h
  rw [← CommandUnit.suspend_append hpending q after, ← hslots, ← ht]
  rfl

/-! ## The cancelled commit (R143) -/

section
variable {s : State} {q : Request} {older younger after : List Holding} {c : Holding}

/-- The COMMIT's slot is freed and its response posted; the configuration loses the pending commit alone. -/
theorem State.isNext.cancelCommit_eq (h : s.isNext q (older ++ c :: younger) after)
    (hkind : c.request.kind = RequestKind.commit.code)
    (hother : ∀ g ∈ older, g.request.kind ≠ RequestKind.commit.code) (tag : Byte) :
    cancelCommit tag s = { s with
      config := { s.config with pendingCommit := none }
      commands := { s.commands with
        slots := (older ++ younger) ++ { request := q, pending := false } :: after
        responses := s.commands.responses ++
          [{ tag, kind := RequestKind.commit.code, outcome := .refused, reason := .aborted, data := [] }] } } := by
  obtain ⟨-, hslots, hpending⟩ := h
  have hrelease : s.commands.release RequestKind.commit.code = { s.commands with
      slots := older ++ (younger ++ { request := q, pending := false } :: after) } :=
    CommandUnit.release_eq (by simpa using hslots) (hpending c (by simp)) hkind hother
  rw [cancelCommit, hrelease, List.append_assoc]
  rfl

/-- The request that was next is next still. -/
theorem State.isNext.cancelCommit (h : s.isNext q (older ++ c :: younger) after)
    (hkind : c.request.kind = RequestKind.commit.code)
    (hother : ∀ g ∈ older, g.request.kind ≠ RequestKind.commit.code) (tag : Byte) :
    (cancelCommit tag s).isNext q (older ++ younger) after := by
  rw [h.cancelCommit_eq hkind hother]
  obtain ⟨hrunning, -, hpending⟩ := h
  refine ⟨hrunning, rfl, fun g hg => hpending g ?_⟩
  simp only [List.mem_append, List.mem_cons] at hg ⊢
  tauto

end

/-! ## ABORT_COMMIT, test by test (R143) -/

section
variable {s : State} {q : Request} {target : Byte}

theorem runAbortCommit_pending (harg : q.arguments = [target]) (hpending : s.config.pendingCommit = some target) :
    runAbortCommit q s = done q [] (cancelCommit target s) := by
  simp [runAbortCommit, harg, hpending]

theorem runAbortCommit_completed (harg : q.arguments = [target]) (hpending : s.config.pendingCommit ≠ some target)
    (hlast : s.config.lastCommit = some target) : runAbortCommit q s = refuse q .tooLate s := by
  simp [runAbortCommit, harg, hpending, hlast]

theorem runAbortCommit_neither (harg : q.arguments = [target]) (hpending : s.config.pendingCommit ≠ some target)
    (hlast : s.config.lastCommit ≠ some target) : runAbortCommit q s = refuse q .nonePending s := by
  simp [runAbortCommit, harg, hpending, hlast]

/-- The request ABORT_COMMIT that is next is carried out. -/
theorem exec_abortCommit {before after : List Holding} (h : s.isNext q before after)
    (hkind : q.kind = RequestKind.abortCommit.code) (harg : q.arguments = [target]) :
    exec .abortCommit s = .next (runAbortCommit q s) := by
  have hrun := h.executeAs_eq hkind (by simp [lengthFits, harg]) runAbortCommit
  exact congrArg Host.Outcome.next hrun

end

/-! ## SET_MODE, test by test (R150) -/

section
variable {s : State} {q : Request} {target : Byte} {mode : Mode}

theorem runSetMode_badValue (harg : q.arguments = [target]) (hmode : modeOf target = none) :
    runSetMode q s = refuse q .badValue s := by
  simp [runSetMode, harg, hmode]

theorem runSetMode_modePending (harg : q.arguments = [target]) (hmode : modeOf target = some mode)
    (hpending : s.config.pendingMode.isSome = true) : runSetMode q s = refuse q .modePending s := by
  simp [runSetMode, harg, hmode, hpending]

theorem runSetMode_current (harg : q.arguments = [target]) (hmode : modeOf target = some mode)
    (hnone : s.config.pendingMode = none) (hcurrent : mode = s.config.mode) :
    runSetMode q s = done q [] s := by
  simp [runSetMode, harg, hmode, hnone, hcurrent]

theorem runSetMode_pends (harg : q.arguments = [target]) (hmode : modeOf target = some mode)
    (hnone : s.config.pendingMode = none) (hother : mode ≠ s.config.mode) :
    runSetMode q s = suspendRequest (s.withConfig { s.config with pendingMode := some (mode, q.tag) }) := by
  simp [runSetMode, harg, hmode, hnone, hother]

/-- The request SET_MODE that is next is carried out. -/
theorem exec_setMode {before after : List Holding} (h : s.isNext q before after)
    (hkind : q.kind = RequestKind.setMode.code) (harg : q.arguments = [target]) :
    exec .setMode s = .next (runSetMode q s) := by
  have hrun := h.executeAs_eq hkind (by simp [lengthFits, harg]) runSetMode
  exact congrArg Host.Outcome.next hrun

end

/-! ## The statements -/

/-- Settles O43: the tests of R143 in their order. After the cancellation the ABORT_COMMIT is next still, so it completes
behind the COMMIT's response. -/
theorem abortCommitCancels : Obligations.AbortCommitCancels := by
  intro s q before after target hnext hkind harg
  rw [exec_abortCommit hnext hkind harg]
  refine ⟨?_, fun hpending hlast => ?_, fun hpending hlast => ?_⟩
  · rintro older younger c hpending rfl hcommit hother
    have hstill := hnext.cancelCommit hcommit hother target
    rw [runAbortCommit_pending harg hpending, hstill.done_eq [] rfl, hnext.cancelCommit_eq hcommit hother]
    simp [CommandUnit.answered]
  · exact hnext.next_eq_refused (runAbortCommit_completed harg hpending hlast)
  · exact hnext.next_eq_refused (runAbortCommit_neither harg hpending hlast)

/-- Settles O44: the tests of R150 in their order. -/
theorem setModeJudged : Obligations.SetModeJudged := by
  intro s q before after target hnext hkind harg
  rw [exec_setMode hnext hkind harg]
  refine ⟨fun hone htwo => ?_, fun mode htarget => ?_⟩
  · exact hnext.next_eq_refused (runSetMode_badValue harg (modeOf_eq_none hone htwo))
  have hmode : modeOf target = some mode := modeOf_eq_some htarget
  refine ⟨fun hpending => ?_, fun hnone hcurrent => ?_, fun hnone hother => ?_⟩
  · exact hnext.next_eq_refused (runSetMode_modePending harg hmode hpending)
  · rw [runSetMode_current harg hmode hnone hcurrent, hnext.done_eq [] rfl]
  · rw [runSetMode_pends harg hmode hnone hother, hnext.suspendRequest_eq (by simp)]
    rfl

end Sys2Proof.Machine
end

