-- ==== Sys2Proof/Proofs/CountersAndRestart.lean ====
section
/-! PROOF. What CLEAR_COUNTERS and RESTART do, and their statements (R173, R174). -/

namespace Sys2Proof.Machine

/-! ## CLEAR_COUNTERS (R173) -/

/-- The zeroing touches neither the holding slots nor the responses, so it may as well follow the completion. -/
theorem done_zeroCounters (q : Request) (data : List Byte) (s : State) :
    done q data (zeroCounters s) = zeroCounters (done q data s) := rfl

/-- The request CLEAR_COUNTERS that is next is done, and the counters of the state it leaves are zeroed. -/
theorem exec_clearCounters {s : State} {q : Request} {before after : List Holding} (h : s.isNext q before after)
    (hkind : q.kind = RequestKind.clearCounters.code) (harg : q.arguments = []) :
    exec .clearCounters s =
      .next (zeroCounters { s with commands := s.commands.answered before after [q.done []] }) := by
  have hrun := h.executeAs_eq hkind (by simp [lengthFits, harg]) runClearCounters
  rw [runClearCounters, done_zeroCounters, h.done_eq [] rfl] at hrun
  exact congrArg Host.Outcome.next hrun

/-! ## RESTART (R174) -/

/-- Every slot of a restarted Channel Engine is UNUSED with nothing counted (R20). -/
theorem State.slot_of_initial {s : State} (h : s.channels = .initial) (i : Fin 32) : s.slot i = .cleared := by
  simp [State.slot, h, ChannelEngine.initial]

/-- Every entry of a restarted Event Matcher is IDLE with condition UNKNOWN (R75). -/
theorem State.entry_of_initial {s : State} (h : s.matcher = .initial) (i : Fin 64) : s.entry i = .cleared := by
  simp [State.entry, h, EventMatcher.initial]

/-- RESTART's own response is the one thing the Command Unit holds, with one of the four credits. -/
theorem runRestart_commands (q : Request) (s : State) :
    (runRestart q s).commands =
      { slots := [], freeCredits := 3, responses := [q.done []], dropped := 0, malformed := 0, requestTimer := 0 } :=
  rfl

/-- The request RESTART that is next is carried out. -/
theorem exec_restart {s : State} {q : Request} {before after : List Holding} (h : s.isNext q before after)
    (hkind : q.kind = RequestKind.restart.code) (harg : q.arguments = []) :
    exec .restart s = .next (runRestart q s) := by
  have hrun := h.executeAs_eq hkind (by simp [lengthFits, harg]) runRestart
  exact congrArg Host.Outcome.next hrun

/-! ## The statements -/

/-- Settles O47: the counters are zeroed in the state that a completed request leaves. -/
theorem clearCountersClears : Obligations.ClearCountersClears := by
  intro s q before after hnext hkind harg
  exact ⟨_, exec_clearCounters hnext hkind harg, fun i => zeroCounters_slot _ i, rfl⟩

/-- Settles O48: block by block, the state that `restartBlocks` leaves, with RESTART's own response in it. -/
theorem restartRestarts : Obligations.RestartRestarts := by
  intro s q before after hnext hkind harg
  have slots : ∀ i, (runRestart q s).slot i = .cleared := State.slot_of_initial rfl
  have entries : ∀ i, (runRestart q s).entry i = .cleared := State.entry_of_initial rfl
  have pins : (runRestart q s).pins = s.pins := (runRestart_keeps q s).1
  exact ⟨_, exec_restart hnext hkind harg, rfl, slots, rfl, entries, rfl, rfl, rfl, runRestart_commands q s, rfl, rfl,
    pins⟩

end Sys2Proof.Machine
end

section
/-! PROOF. What must be shown of a law so that every step keeps it: one clause for each operation that the commands are made
of. The relay buffers, the Event Queue and the waiting commands are left to the laws that read them. -/

namespace Sys2Proof.Machine

/-! ## Small facts on the operations -/

/-- Two states that differ at most in the relay buffers, the Event Queue, the waiting commands, and those pins that neither
the phase nor the strap address is read from. -/
def State.sameBlocks (s t : State) : Prop :=
  t.cycle = s.cycle ∧ t.channels = s.channels ∧ t.matcher = s.matcher ∧ t.reports = s.reports ∧
  t.commands = s.commands ∧ t.config = s.config ∧ t.lines = s.lines ∧ t.pins.phase = s.pins.phase ∧
  t.pins.strap = s.pins.strap

theorem State.sameBlocks.readers {s t : State} (h : s.sameBlocks t) :
    t.activeBank = s.activeBank ∧ t.shadowBank = s.shadowBank ∧ t.slotRecord = s.slotRecord ∧
    t.entryRecord = s.entryRecord ∧ t.slot = s.slot ∧ t.entry = s.entry ∧ t.isAwake = s.isAwake := by
  obtain ⟨-, hchannels, hmatcher, -, -, hconfig, -, hphase, -⟩ := h
  have hrecord : t.slotRecord = s.slotRecord := by funext i; simp [State.slotRecord, State.activeBank, hconfig]
  have hentryRecord : t.entryRecord = s.entryRecord := by funext i; simp [State.entryRecord, State.activeBank, hconfig]
  have hslot : t.slot = s.slot := by funext i; simp [State.slot, hchannels]
  have hentry : t.entry = s.entry := by funext i; simp [State.entry, hmatcher]
  exact ⟨by simp [State.activeBank, hconfig], by simp [State.shadowBank, hconfig], hrecord, hentryRecord, hslot, hentry,
    by simp [State.isAwake, hphase]⟩

/-- A SAMPLE is classified as valid for a slot exactly when the slot is found valid for it (R4). -/
theorem classify_eq_valid_iff (s : State) (m : Sample) (i : Fin 32) : classify s m = .valid i ↔ s.findsValid m i := by
  unfold classify State.findsValid
  cases hmatch : matchSlot s.activeBank s.pins.strap m.address m.subchannel with
  | none => simp
  | some j =>
    dsimp only
    split_ifs with hstale hkind hduplicate
    · simp only [Option.some.injEq, false_iff]
      rintro ⟨-, hopened, hcycle, -⟩
      exact hstale.elim (absurd hopened) (absurd hcycle)
    · simp only [Option.some.injEq, false_iff]
      rintro ⟨rfl, -, -, hsame, -⟩
      exact hkind hsame
    · simp only [Option.some.injEq, false_iff]
      rintro ⟨rfl, -, -, -, hfresh⟩
      simp [hduplicate] at hfresh
    · simp only [SampleOutcome.valid.injEq, Option.some.injEq]
      refine ⟨?_, fun h => h.1⟩
      rintro rfl
      simp only [not_or, not_not] at hstale
      exact ⟨rfl, hstale.1, hstale.2, not_not.mp hkind, by simpa using hduplicate⟩

/-- The freeing of a PENDING slot leaves the oldest WAITING one. -/
theorem find?_waiting_of_freed (l : List Holding) (kind : Byte) :
    (l.eraseP fun h => h.pending && decide (h.request.kind = kind)).find? (fun h => !h.pending) =
      l.find? fun h => !h.pending := by
  induction l with
  | nil => rfl
  | cons h l ih =>
    cases hfreed : h.pending && decide (h.request.kind = kind) with
    | true => simp_all
    | false => simp [hfreed, List.find?_cons, ih]

/-- The freeing of a PENDING slot leaves the request that is next. -/
@[simp] theorem CommandUnit.release_next (c : CommandUnit) (kind : Byte) : (c.release kind).next = c.next :=
  congrArg (Option.map Holding.request) (find?_waiting_of_freed c.slots kind)

/-- A response posted leaves the request that is next. -/
@[simp] theorem CommandUnit.respond_next (c : CommandUnit) (r : Response) : (c.respond r).next = c.next := rfl

/-- The kind's byte of a request that executes as one of a known kind. -/
theorem kind_eq_code {b : Byte} {k : RequestKind} (h : requestKindOf b = some k) : b = k.code := by
  have := List.find?_some h
  simpa [eq_comm] using this

/-! ## The handling of the outbound buffer keeps the places -/

/-- Only end frames in number up to the hold limit stand before an OPEN that is not held (R185). -/
theorem endCount_of_not_held {run : Run} {s : State} {f : Frame} (hfree : mustHold run s = false)
    (hf : intactFrame run = some f) (hopen : f.type = typeOpen) : s.frames.endCount ≤ 3 := by
  simpa [mustHold, hf, hopen] using hfree

/-- A cycle end leaves the outbound buffer as it is, and so does the handling of each of its frames. -/
@[simp] theorem handleOutbound_outbound (run : Run) (s : State) :
    (handleOutbound run s).1.frames.outbound = s.frames.outbound := by
  unfold handleOutbound
  split
  · rfl
  · split_ifs
    · unfold handOpen
      split
      · simp
      · simp only [takeOpen, startCycle_keeps, resume_keeps, checkNumber_keeps, checkPeriod_keeps]
        unfold overtake
        split_ifs <;> simp
    · simp
    · rfl

theorem handleInTurn_outbound (l : List OutboundFrame) (s : State) :
    (handleInTurn l s).1.frames.outbound = s.frames.outbound ∧ (handleInTurn l s).2.length ≤ l.length := by
  induction l generalizing s with
  | nil => exact ⟨rfl, le_rfl⟩
  | cons f l ih =>
    unfold handleInTurn
    split_ifs with hhandled hhold
    · exact ⟨(ih s).1, by simpa using (ih s).2⟩
    · exact ⟨rfl, le_rfl⟩
    · obtain ⟨hkept, hlength⟩ := ih (handleOutbound f.run s).1
      refine ⟨by rw [hkept, handleOutbound_outbound], ?_⟩
      dsimp only
      split_ifs
      · simpa using hlength
      · exact hlength.trans (Nat.le_succ _)

/-! ## Laws kept by the handling of frames -/

/-- A law that the taking of an OPEN, the counting of a malformed one and the taking of a management frame keep is kept by the
handling of the outbound buffer. -/
theorem handleWaiting_kept {law : State → Prop}
    (hplaces : ∀ s l, law s → l.length ≤ s.frames.outbound.length →
      law (s.withFrames { s.frames with outbound := l }))
    (hopen : ∀ s o, law s → s.pins.phase = .running → s.frames.endCount ≤ 3 → law (takeOpen o s))
    (hmalformed : ∀ s, law s → law (countMalformedLink s))
    (hmgmt : ∀ s body, law s → s.pins.strap ≠ 0 → law (takeMgmt body s))
    (s : State) (hs : law s) (hrunning : s.pins.phase = .running) : law (handleWaiting s) := by
  have hone : ∀ u run, (law u ∧ u.pins.phase = .running) → mustHold run u = false →
      law (handleOutbound run u).1 ∧ (handleOutbound run u).1.pins.phase = .running := by
    rintro u run ⟨hu, hphase⟩ hfree
    refine ⟨?_, by simpa using hphase⟩
    unfold handleOutbound
    split
    · exact hu
    · rename_i f hf
      split_ifs with htype hpart
      · unfold handOpen
        split
        · exact hmalformed _ hu
        · exact hopen _ _ hu hphase (endCount_of_not_held hfree hf htype)
      · refine hmgmt _ _ hu ?_
        simp only [isForPart, Bool.and_eq_true, decide_eq_true_eq] at hpart
        exact hpart.1.2
      · exact hu
  have hall := handleInTurn_kept (law := fun u => law u ∧ u.pins.phase = .running) hone s.frames.outbound s
    ⟨hs, hrunning⟩
  obtain ⟨houtbound, hlength⟩ := handleInTurn_outbound s.frames.outbound s
  exact hplaces _ _ hall.1 (by rwa [houtbound])

/-- A law that the phases of a taken OPEN keep is kept by its taking. -/
theorem takeOpen_kept {law : State → Prop} (o : OpenBody) (s : State) (hs : law s) (hrunning : s.pins.phase = .running)
    (hacks : ∀ u acks, law u → law (applyAcks acks u))
    (hpost : ∀ u p d, law u → law (post p d u))
    (hcount : ∀ u f, law u → law (countCycle f u))
    (hend : ∀ u e, law u → u.pins.phase = .running → u.cycle.link = .opened → law (endCycle e u))
    (hresume : ∀ u n, law u → u.pins.phase = .running → law (resume n u))
    (hstart : ∀ u n, law u → u.pins.phase = .running → law (startCycle n u)) : law (takeOpen o s) := by
  have hovertake : ∀ u, law u → u.pins.phase = .running → law (overtake u) := by
    intro u hu hphase
    unfold overtake
    split_ifs with hopened
    · exact hend _ _ (hcount _ _ hu) (by simpa using hphase) (by simpa [countCycle] using hopened)
    · exact hu
  have hperiod : ∀ u arrival, law u → law (checkPeriod arrival u) := by
    intro u arrival hu
    unfold checkPeriod
    dsimp only
    split_ifs
    · exact hcount _ _ (hpost _ _ _ hu)
    · exact hu
  have hnumber : ∀ u arrival n, law u → law (checkNumber arrival n u) := by
    intro u arrival n hu
    unfold checkNumber
    dsimp only
    split_ifs
    · exact hcount _ _ (hpost _ _ _ hu)
    · exact hu
  unfold takeOpen
  dsimp only
  refine hstart _ _ (hresume _ _ (hnumber _ _ _ (hperiod _ _ (hovertake _ (hacks _ _ hs) ?_))) ?_) ?_ <;>
    simpa using hrunning

/-- A law that the counting and the taking of a valid SAMPLE keep is kept by the taking of a SAMPLE. -/
theorem takeSample_kept {law : State → Prop} (address : Byte) (body : List Byte) (s : State) (hs : law s)
    (hcount : ∀ u c, law u → law (u.withChannels { u.channels with counters := c }))
    (hvalid : ∀ m i, s.findsValid m i → law (settleLines (takeValid i m s))) : law (takeSample address body s).1 := by
  unfold takeSample
  cases hparse : parseSample address body with
  | none => exact hcount _ _ hs
  | some m =>
    cases houtcome : classify s m with
    | valid i =>
      simp only [houtcome]
      exact hvalid m i ((classify_eq_valid_iff s m i).mp houtcome)
    | unmapped => simpa only [houtcome] using hcount _ _ hs
    | stale i => simpa only [houtcome] using hcount _ _ hs
    | kindMismatch i => simpa only [houtcome] using hcount _ _ hs
    | duplicate i => simpa only [houtcome] using hcount _ _ hs

/-! ## The clauses of a law that reads neither the relay buffers nor the Event Queue -/

/-- The operations that the commands and the ticks are made of keep a law. -/
structure KeptByOperations (law : State → Prop) : Prop where
  same : ∀ s t, s.sameBlocks t → law s → law t
  timers : ∀ s, law s → law (advanceTimers s)
  enter : ∀ s phase, phase = .powerOnReset ∨ phase = .pinReset → law s → law (enterReset phase s)
  leave : ∀ s straps, law (leaveReset straps s)
  held : ∀ s straps, law ((leaveReset straps s).withPins { (leaveReset straps s).pins with phase := .pinReset })
  initialised : ∀ s, law s → s.pins.phase = .initialising →
    law (s.withPins { s.pins with phase := .running, initialisationTicks := Config.initialisationTicks })
  acks : ∀ s acks, law s → law (applyAcks acks s)
  count : ∀ s f, law s → law (countCycle f s)
  ending : ∀ s e, law s → s.pins.phase = .running → s.cycle.link = .opened → law (endCycle e s)
  resume : ∀ s n, law s → s.pins.phase = .running → law (resume n s)
  start : ∀ s n, law s → s.pins.phase = .running → law (startCycle n s)
  mgmt : ∀ s body, law s → s.pins.strap ≠ 0 → law (takeMgmt body s)
  classified : ∀ s c, law s → law (s.withChannels { s.channels with counters := c })
  valid : ∀ s m i, law s → s.pins.phase = .running → s.config.mode = .monitor → s.findsValid m i →
    law (settleLines (takeValid i m s))
  deadline : ∀ s, law s → law (reachDeadline s)
  stall : ∀ s, law s → s.pins.phase = .running → s.isSupervised = true → law (stall s)
  edge : ∀ s c, law s → s.cycle.link = .opened → law (s.withCycle { s.cycle with captureSlot := some c })
  complete : ∀ s q outcome reason data, law s → s.commands.next = some q → law (complete q outcome reason data s)
  write : ∀ s q b, law s → s.commands.next = some q → s.config.pendingCommit = none → law (s.withShadowBank b)
  commit : ∀ s q, law s → s.executes q (some .commit) → s.config.pendingCommit = none →
    validate s.shadowBank s.pins.strap = none →
    law (suspendRequest (s.withConfig { s.config with pendingCommit := some q.tag }))
  cancel : ∀ s tag, law s → s.config.pendingCommit = some tag → law (cancelCommit tag s)
  setMode : ∀ s q mode, law s → s.executes q (some .setMode) → s.config.pendingMode = none → mode ≠ s.config.mode →
    law (suspendRequest (s.withConfig { s.config with pendingMode := some (mode, q.tag) }))
  defer : ∀ s i, law s → s.config.mode = .monitor → (s.entryRecord i).used = true →
    (s.entryRecord i).mode = .latched → s.entry i = { condition := .inWindow, latch := .set } →
    law (s.withEntry i { condition := .inWindow, latch := .deferred })
  clear : ∀ s i, law s → s.pins.phase = .running → s.config.mode = .monitor → (s.entryRecord i).used = true →
    (s.entryRecord i).mode = .latched → (s.entry i).latch = .set → (s.entry i).condition ≠ .inWindow →
    law (clearAcknowledged i s)
  release : ∀ s i cause, law s → s.pins.phase = .running → s.config.mode = .monitor →
    (s.slot i).health = .faulted cause → law (releaseSlot i cause s)
  zero : ∀ s, law s → law (zeroCounters s)
  restart : ∀ s q, law s → s.commands.next = some q → law (runRestart q s)

namespace KeptByOperations

variable {law : State → Prop} (k : KeptByOperations law)
include k

theorem post (p : Fin 4) (d : Detail) (s : State) (h : law s) : law (post p d s) :=
  k.same _ _ (by simp [State.sameBlocks]) h

theorem places (s : State) (l : List OutboundFrame) (h : law s) :
    law (s.withFrames { s.frames with outbound := l }) :=
  k.same _ _ (by simp [State.sameBlocks]) h

theorem takeOpen (o : OpenBody) (s : State) (h : law s) (hrunning : s.pins.phase = .running) : law (takeOpen o s) :=
  takeOpen_kept o s h hrunning k.acks (fun u p d => k.post p d u) k.count k.ending k.resume k.start

theorem handleWaiting (s : State) (h : law s) (hrunning : s.pins.phase = .running) : law (handleWaiting s) :=
  handleWaiting_kept (fun u l hu _ => k.places u l hu) (fun u o hu hphase _ => k.takeOpen o u hu hphase)
    (fun u hu => k.count u _ hu) k.mgmt s h hrunning

theorem judgeRun (outbound : Bool) (run : Run) (s : State) (h : law s) : law (judgeRun outbound run s) :=
  k.same _ _ (by simp [State.sameBlocks]) h

theorem receiveCp (run : Run) (s : State) (h : law s) (hawake : s.isAwake = true) : law (receiveCp run s) :=
  receiveCp_kept run s h hawake (k.judgeRun true run s)
    (fun _ _ hu => k.same _ _ (by simp [State.sameBlocks]) hu) k.handleWaiting

theorem lateClose (n : Word) (s : State) (h : law s) : law (lateClose n s) :=
  k.count _ _ (k.post _ _ _ h)

theorem takeClose (n : Word) (bytes : List Byte) (s : State) (h : law s) (hrunning : s.pins.phase = .running) :
    law (takeClose n bytes s) := by
  unfold Machine.takeClose
  split_ifs with hopened
  · exact k.ending _ _ h hrunning hopened.1
  · exact k.lateClose n s h

theorem receiveSp (run : Run) (s : State) (h : law s) : law (receiveSp run s) :=
  receiveSp_kept run s h (k.judgeRun false run s) (fun _ _ hu => k.same _ _ (by simp [State.sameBlocks]) hu)
    (fun u address body hu hphase hmode =>
      takeSample_kept address body u hu k.classified fun m i hvalid => k.valid u m i hu hphase hmode hvalid)
    (fun u hu => k.count u _ hu) fun u n hu hphase => k.takeClose n run.bytes u hu hphase

theorem qualifyEdge (s : State) (h : law s) : law (qualifyEdge s) := by
  have hpins := k.same s (s.withPins { s.pins with qualifier := .high, capture := true, captureSampled := true })
    (by simp [State.sameBlocks]) h
  unfold Machine.qualifyEdge
  dsimp only
  split_ifs with hrunning
  · unfold takeEdge
    split
    · rename_i hopened
      exact k.edge _ _ hpins hopened
    · exact k.post _ _ _ hpins
  · exact hpins

theorem deadlineEnd (s : State) (h : law s) (hrunning : s.pins.phase = .running) (hopened : s.cycle.link = .opened) :
    law (deadlineEnd s) :=
  k.ending _ _ (k.count _ _ (k.deadline _ h)) (by simpa using hrunning) (by simpa [countCycle, reachDeadline] using hopened)

theorem refuse (q : Request) (reason : Reason) (s : State) (h : law s) (hnext : s.commands.next = some q) :
    law (refuse q reason s) := k.complete _ _ _ _ _ h hnext

theorem done (q : Request) (data : List Byte) (s : State) (h : law s) (hnext : s.commands.next = some q) :
    law (done q data s) := k.complete _ _ _ _ _ h hnext

/-! ### The requests -/

section
variable (s : State) (q : Request) (h : law s) (hnext : s.commands.next = some q)
include h hnext

theorem runReadEntry : law (runReadEntry q s) := by
  unfold Machine.runReadEntry
  split
  · split
    · split
      · exact k.done _ _ _ h hnext
      · exact k.refuse _ _ _ h hnext
    · exact k.refuse _ _ _ h hnext
  · exact k.refuse _ _ _ h hnext

theorem written (b : Bank) (hnone : s.config.pendingCommit.isSome ≠ true) :
    law (Machine.done q [] (s.withShadowBank b)) :=
  k.done _ _ _ (k.write s q b h hnext (by simpa using hnone)) (by simpa using hnext)

theorem runWriteShadow : law (runWriteShadow q s) := by
  unfold Machine.runWriteShadow
  split
  · split
    · exact k.refuse _ _ _ h hnext
    · split_ifs with hsize hpending
      · exact k.refuse _ _ _ h hnext
      · exact k.refuse _ _ _ h hnext
      · split
        · exact k.written s q h hnext _ hpending
        · exact k.refuse _ _ _ h hnext
  · exact k.refuse _ _ _ h hnext

theorem runSyncShadow : law (runSyncShadow q s) := by
  unfold Machine.runSyncShadow
  split_ifs with hpending
  · exact k.refuse _ _ _ h hnext
  · exact k.written s q h hnext _ hpending

theorem runAbortCommit : law (runAbortCommit q s) := by
  unfold Machine.runAbortCommit
  split
  · split_ifs with hpending
    · exact k.done _ _ _ (k.cancel _ _ h hpending) (by simpa [cancelCommit] using hnext)
    · exact k.refuse _ _ _ h hnext
    · exact k.refuse _ _ _ h hnext
  · exact k.refuse _ _ _ h hnext

theorem runReadChannel : law (runReadChannel q s) := by
  unfold Machine.runReadChannel
  split
  · split
    · exact k.refuse _ _ _ h hnext
    · exact k.done _ _ _ h hnext
  · exact k.refuse _ _ _ h hnext

end

section
variable (s : State) (q : Request) (h : law s)
include h

theorem runCommit (he : s.executes q (some .commit)) : law (runCommit q s) := by
  unfold Machine.runCommit
  split_ifs with hpending
  · exact k.refuse _ _ _ h he.2.1
  · split
    · exact k.complete _ _ _ _ _ h he.2.1
    · rename_i hvalid
      exact k.commit s q h he (by simpa using hpending) hvalid

theorem runSetMode (he : s.executes q (some .setMode)) : law (runSetMode q s) := by
  have hnext := he.2.1
  unfold Machine.runSetMode
  split
  · split
    · exact k.refuse _ _ _ h hnext
    · split_ifs with hpending hcurrent
      · exact k.refuse _ _ _ h hnext
      · exact k.done _ _ _ h hnext
      · exact k.setMode s q _ h he (by simpa using hpending) hcurrent
  · exact k.refuse _ _ _ h hnext

theorem acknowledgeEntry (i : Fin 64) (hrunning : s.pins.phase = .running) (hnext : s.commands.next = some q)
    (hmode : s.config.mode = .monitor) (hused : (s.entryRecord i).used = true)
    (hlatched : (s.entryRecord i).mode = .latched) (hset : (s.entry i).latch = .set) :
    law (acknowledgeEntry q i s) := by
  by_cases hin : (s.entry i).condition = .inWindow
  · rw [acknowledgeEntry_inWindow q hin]
    refine k.done _ _ _ (k.defer s i h hmode hused hlatched ?_) (by simpa using hnext)
    rw [← hin, ← hset]
  · rw [acknowledgeEntry_notInWindow q hin]
    exact k.done _ _ _ (k.clear s i h hrunning hmode hused hlatched hset hin) (by simpa using hnext)

theorem runAckEvent (hrunning : s.pins.phase = .running) (hnext : s.commands.next = some q) :
    law (runAckEvent q s) := by
  unfold Machine.runAckEvent
  split
  · split_ifs with hstandby
    · exact k.refuse _ _ _ h hnext
    · have hmode : s.config.mode = .monitor := by cases hm : s.config.mode <;> simp_all
      split
      · exact k.refuse _ _ _ h hnext
      · rename_i i _
        split_ifs with hunused hlevel
        · exact k.refuse _ _ _ h hnext
        · exact k.refuse _ _ _ h hnext
        · have hlatched : (s.entryRecord i).mode = .latched := by cases hm : (s.entryRecord i).mode <;> simp_all
          split
          · rename_i hset
            exact k.acknowledgeEntry s q h i hrunning hnext hmode (by simpa using hunused) hlatched hset
          · exact k.done _ _ _ h hnext
          · exact k.refuse _ _ _ h hnext
  · exact k.refuse _ _ _ h hnext

theorem runAckChannel (hrunning : s.pins.phase = .running) (hnext : s.commands.next = some q) :
    law (runAckChannel q s) := by
  unfold Machine.runAckChannel
  split
  · split_ifs with hstandby
    · exact k.refuse _ _ _ h hnext
    · have hmode : s.config.mode = .monitor := by cases hm : s.config.mode <;> simp_all
      split
      · exact k.refuse _ _ _ h hnext
      · split_ifs
        · exact k.refuse _ _ _ h hnext
        · split
          · exact k.refuse _ _ _ h hnext
          · exact k.refuse _ _ _ h hnext
          · rename_i hfaulted
            exact k.done _ _ _ (k.release s _ _ h hrunning hmode hfaulted) (by simpa using hnext)
          · exact k.refuse _ _ _ h hnext
  · exact k.refuse _ _ _ h hnext

end

/-- A law that the operations keep is kept by every step. -/
theorem keptByStep : KeptByStep law := by
  refine keptByStep_of (fun s l h => k.same s _ (by simp [State.sameBlocks]) h)
    (fun s p hphase hstrap h => k.same s _ (by simp [State.sameBlocks, hphase, hstrap]) h) k.timers ?_
  apply kept_by_exec
  case hPins => exact fun s p hphase hstrap h => k.same s _ (by simp [State.sameBlocks, hphase, hstrap]) h
  case hEnter => exact k.enter
  case hLeave => exact fun s straps _ => k.leave s straps
  case hHeld => exact fun s straps _ => k.held s straps
  case hInitialised => exact k.initialised
  case hCp => exact fun s run => k.receiveCp run s
  case hSp => exact fun s run h _ => k.receiveSp run s h
  case hSentCp => exact fun s h => k.same s _ (by simp [State.sameBlocks]) h
  case hSentSp => exact fun s h => k.same s _ (by simp [State.sameBlocks]) h
  case hRelease => exact k.handleWaiting
  case hDeadline => exact k.deadlineEnd
  case hStall => exact k.stall
  case hEdge => exact k.qualifyEdge
  case hRefuse => exact fun s q reason h _ hnext => k.refuse q reason s h hnext
  case hReadEntry => exact fun s q h he => k.runReadEntry s q h he.2.1
  case hWriteShadow => exact fun s q h he => k.runWriteShadow s q h he.2.1
  case hSyncShadow => exact fun s q h he => k.runSyncShadow s q h he.2.1
  case hCommit => exact k.runCommit
  case hAbortCommit => exact fun s q h he => k.runAbortCommit s q h he.2.1
  case hSetMode => exact k.runSetMode
  case hAckEvent => exact fun s q h he => k.runAckEvent s q h he.1 he.2.1
  case hAckChannel => exact fun s q h he => k.runAckChannel s q h he.1 he.2.1
  case hReadChannel => exact fun s q h he => k.runReadChannel s q h he.2.1
  case hReadStatus => exact fun s q h he => k.done q _ s h he.2.1
  case hClearCounters => exact fun s q h he => k.done q [] _ (k.zero s h) he.2.1
  case hRestart => exact fun s q h he => k.restart s q h he.2.1

end KeptByOperations

end Sys2Proof.Machine
end

section
/-! PROOF. The laws of the lines, of the link and of listen-only operation are kept by every step (R49, R70, R76, R159). -/

namespace Sys2Proof.Machine

/-! ## The lines (R49, R70) -/

/-- In a reset, and in STANDBY, negated lines obey their laws. -/
theorem linesObeyLaws_of_negated {t : State} (hlines : t.lines = .negated)
    (h : t.isAwake = false ∨ t.config.mode = .standby) : t.linesObeyLaws := by
  rw [linesObeyLaws_iff, hlines]
  split_ifs with hawake
  · obtain hasleep | hmode := h
    · simp [hawake] at hasleep
    · simp [triggerLaw, faultLaw, hmode, Lines.negated]
  · rfl

/-- A part that is running is out of reset. -/
theorem State.isAwake_of_running {s : State} (h : s.pins.phase = .running) : s.isAwake = true := by
  simp [State.isAwake, h]

theorem linesObeyLaws_keptByOperations : KeptByOperations State.linesObeyLaws where
  same s t h hs := by
    obtain ⟨hbank, -, -, -, hslots, hentries, hawake⟩ := h.readers
    obtain ⟨hcycle, -, -, -, -, hconfig, hlines, -, -⟩ := h
    exact hs.congr hlines hawake (by rw [hconfig]) hbank (by simp [hentries]) (by simp [hslots]) (by rw [hcycle])
  timers s hs := hs.congr (by simp) (by simp [advanceTimers, State.isAwake]) (by simp) (by simp) (by simp) (by simp)
    (by simp [advanceTimers, CycleTracker.tick])
  enter s phase hphase _ := linesObeyLaws_of_negated rfl (.inl (by
    obtain rfl | rfl := hphase <;> simp [enterReset, State.isAwake]))
  leave s straps := linesObeyLaws_of_negated rfl (.inr rfl)
  held s straps := linesObeyLaws_of_negated rfl (.inr rfl)
  initialised s hs hphase := hs.congr rfl (by simp [State.isAwake, hphase]) rfl rfl (fun _ => rfl) (fun _ => rfl) Iff.rfl
  acks s acks hs := hs.congr (by simp) (by simp) (by simp) (by simp) (by simp) (by simp) (by simp)
  count s f hs := hs.congr (by simp) (by simp) (by simp) (by simp) (by simp) (by simp) (by simp [countCycle])
  ending s e hs hrunning _ := by
    have hawake : (evaluateCycleEnd (postCapture (postFinding e (closeLink s)))).isAwake = true := by
      simpa using s.isAwake_of_running hrunning
    exact (settleLines_obeys _ hawake).congr (t := endCycle e s) (by simp [endCycle, settleCycle])
      (by simp [endCycle, settleCycle]) (by simp [endCycle, settleCycle]) (by simp [endCycle, settleCycle])
      (by simp [endCycle, settleCycle]) (by simp [endCycle, settleCycle]) (by simp [endCycle, settleCycle])
  resume s n hs hrunning := by
    unfold resume
    split_ifs
    · exact settleLines_obeys _ (by simpa using s.isAwake_of_running hrunning)
    · exact hs
  start s n _ hrunning := settleLines_obeys _ (by simpa using s.isAwake_of_running hrunning)
  mgmt s body hs _ := hs.congr (by simp) (by simp) (by simp) (by simp) (by simp) (by simp) (by simp)
  classified s c hs := hs.congr rfl rfl rfl rfl (fun _ => rfl) (fun _ => rfl) Iff.rfl
  valid s m i _ hrunning _ _ := settleLines_obeys _ (by simpa using s.isAwake_of_running hrunning)
  deadline s hs := hs.congr (by simp) (by simp) (by simp) (by simp) (by simp) (by simp) (by simp [reachDeadline])
  stall s _ hrunning _ := settleLines_obeys _ (by simpa using s.isAwake_of_running hrunning)
  edge s c hs _ := hs.congr rfl rfl rfl rfl (fun _ => rfl) (fun _ => rfl) Iff.rfl
  complete s q outcome reason data hs _ :=
    hs.congr (by simp) (by simp) (by simp) (by simp) (by simp) (by simp) (by simp)
  write s q b hs _ _ := hs.congr (by simp) (by simp) (by simp) (by simp) (by simp) (by simp) (by simp)
  commit s q hs _ _ _ := hs.congr rfl rfl rfl rfl (fun _ => rfl) (fun _ => rfl) Iff.rfl
  cancel s tag hs _ := hs.congr rfl rfl rfl rfl (fun _ => rfl) (fun _ => rfl) Iff.rfl
  setMode s q mode hs _ _ _ := hs.congr rfl rfl rfl rfl (fun _ => rfl) (fun _ => rfl) Iff.rfl
  defer s i hs _ _ _ hset := by
    have hdrives : ∀ j, ((s.withEntry i { condition := .inWindow, latch := .deferred }).entry j).latch.drives =
        (s.entry j).latch.drives := by
      intro j
      rw [State.withEntry_entry]
      split_ifs with hj
      · simp [hj, hset, Latch.drives]
      · rfl
    exact hs.congr rfl rfl rfl rfl hdrives (fun _ => rfl) Iff.rfl
  clear s i _ hrunning _ _ _ _ _ := clearAcknowledged_obeys i (s.isAwake_of_running hrunning)
  release s i cause _ hrunning _ _ := releaseSlot_obeys i cause (s.isAwake_of_running hrunning)
  zero s hs := hs.congr rfl rfl rfl rfl (fun _ => rfl) (by simp) Iff.rfl
  restart s q _ _ := linesObeyLaws_of_negated rfl (.inr rfl)

/-- Settles O49: every operation settles the lines behind it or leaves what their laws read, and a reset negates them. -/
theorem linesLawKept : Obligations.LinesLawKept := linesObeyLaws_keptByOperations.keptByStep

/-! ## The link (R76, R92) -/

/-- The link's law reads the Cycle Tracker alone, without its counters. -/
theorem State.linkCoherent.congr {s t : State} (hs : s.linkCoherent) (hlink : t.cycle.link = s.cycle.link)
    (hcurrent : t.cycle.currentCycle = s.cycle.currentCycle)
    (hperiod : t.cycle.periodTimer = none ↔ s.cycle.periodTimer = none)
    (hdeadline : t.cycle.deadlineTimer.isSome = s.cycle.deadlineTimer.isSome)
    (hcapture : t.cycle.captureSlot = s.cycle.captureSlot) : t.linkCoherent := by
  unfold State.linkCoherent
  rwa [hlink, hcurrent, hperiod, hdeadline, hcapture]

theorem State.linkCoherent.of_cycle {s t : State} (hs : s.linkCoherent) (h : t.cycle = s.cycle) : t.linkCoherent := by
  unfold State.linkCoherent
  rwa [h]

/-- In its state after reset the Cycle Tracker is coherent. -/
theorem linkCoherent_of_initial {t : State} (h : t.cycle = .initial) : t.linkCoherent := by
  simp [State.linkCoherent, h, CycleTracker.initial]

/-- A link that is CLOSED or STALLED, with a current number and a running period timer, its deadline timer stopped. -/
theorem linkCoherent_of_stopped {t : State} (hlink : t.cycle.link = .closed ∨ t.cycle.link = .stalled)
    (hcurrent : t.cycle.currentCycle ≠ none) (hperiod : t.cycle.periodTimer ≠ none)
    (hdeadline : t.cycle.deadlineTimer = none) : t.linkCoherent := by
  unfold State.linkCoherent
  obtain hlink | hlink := hlink <;> simp [hlink, hcurrent, hperiod, hdeadline]

/-- Out of WAITING the number and the period timer are there. -/
theorem State.linkCoherent.present {s : State} (hs : s.linkCoherent) (h : s.cycle.link ≠ .waiting) :
    s.cycle.currentCycle ≠ none ∧ s.cycle.periodTimer ≠ none := by
  obtain ⟨hcurrent, hperiod, -, -⟩ := hs
  exact ⟨fun hnone => h (hcurrent.mpr hnone), fun hnone => h (hperiod.mpr hnone)⟩

theorem stall_cycle (s : State) : (stall s).cycle = { s.cycle with
    link := .stalled, deadlineTimer := none, periodTimer := some s.activeBank.link.periodMaximum
    counters := { s.cycle.counters with stalls := satInc s.cycle.counters.stalls } } := by
  simp [stall, countCycle]

theorem resume_cycle (n : Word) (s : State) : (resume n s).cycle =
    if s.cycle.link = .stalled then { s.cycle with link := .closed } else s.cycle := by
  unfold resume
  dsimp only
  split_ifs <;> simp

theorem startCycle_cycle (n : Word) (s : State) : (startCycle n s).cycle = { s.cycle with
    link := .opened, currentCycle := some n, periodTimer := some 0
    deadlineTimer := some (applyMode (swapBanks (clearIndications s))).activeBank.link.closeDeadline
    counters := { s.cycle.counters with opensTaken := satInc s.cycle.counters.opensTaken } } := by
  simp [startCycle]

theorem linkCoherent_keptByOperations : KeptByOperations State.linkCoherent where
  same s t h hs := hs.of_cycle h.1
  timers s hs := hs.congr (by simp [advanceTimers, CycleTracker.tick]) (by simp [advanceTimers, CycleTracker.tick])
    (by simp [advanceTimers, CycleTracker.tick, advancePeriod]) (by simp [advanceTimers, CycleTracker.tick])
    (by simp [advanceTimers, CycleTracker.tick])
  enter s phase _ hs := hs.of_cycle rfl
  leave s straps := linkCoherent_of_initial rfl
  held s straps := linkCoherent_of_initial rfl
  initialised s hs _ := hs.of_cycle rfl
  acks s acks hs := hs.of_cycle (by simp)
  count s f hs := hs.congr rfl rfl Iff.rfl rfl rfl
  ending s e hs _ hopened := by
    obtain ⟨hcurrent, hperiod⟩ := hs.present (by simp [hopened])
    exact linkCoherent_of_stopped (by simp) (by simpa using hcurrent) (by simpa using hperiod) (by simp)
  resume s n hs _ := by
    by_cases hstalled : s.cycle.link = .stalled
    · obtain ⟨hcurrent, hperiod⟩ := hs.present (by simp [hstalled])
      have hdeadline : s.cycle.deadlineTimer = none := by
        obtain ⟨-, -, hopened, -⟩ := hs
        simpa [hstalled] using hopened
      have hcycle : (resume n s).cycle = { s.cycle with link := .closed } := by rw [resume_cycle, if_pos hstalled]
      exact linkCoherent_of_stopped (by simp [hcycle]) (by simpa [hcycle] using hcurrent)
        (by simpa [hcycle] using hperiod) (by simpa [hcycle] using hdeadline)
    · exact hs.of_cycle (by rw [resume_cycle, if_neg hstalled])
  start s n _ _ := by simp [State.linkCoherent, startCycle_cycle]
  mgmt s body hs _ := hs.of_cycle (by simp)
  classified s c hs := hs.of_cycle rfl
  valid s m i hs _ _ _ := hs.of_cycle (by simp)
  deadline s hs := hs.congr rfl rfl (by simp [reachDeadline, advancePeriod]) (by simp [reachDeadline]) rfl
  stall s hs _ hsupervised := by
    have hlink : s.cycle.link ≠ .waiting := by
      rintro hwaiting
      simp [State.isSupervised, hwaiting] at hsupervised
    obtain ⟨hcurrent, -⟩ := hs.present hlink
    exact linkCoherent_of_stopped (by simp [stall_cycle]) (by simpa [stall_cycle] using hcurrent)
      (by simp [stall_cycle]) (by simp [stall_cycle])
  edge s c hs hopened := by
    obtain ⟨hcurrent, hperiod, hdeadline, -⟩ := hs
    exact ⟨hcurrent, hperiod, hdeadline, fun _ => by simp [hopened]⟩
  complete s q outcome reason data hs _ := hs.of_cycle (by simp)
  write s q b hs _ _ := hs.of_cycle (by simp)
  commit s q hs _ _ _ := hs.of_cycle rfl
  cancel s tag hs _ := hs.of_cycle rfl
  setMode s q mode hs _ _ _ := hs.of_cycle rfl
  defer s i hs _ _ _ _ := hs.of_cycle (by simp)
  clear s i hs _ _ _ _ _ _ := hs.of_cycle (by simp)
  release s i cause hs _ _ _ := hs.of_cycle (by simp)
  zero s hs := hs.congr rfl rfl Iff.rfl rfl rfl
  restart s q _ _ := linkCoherent_of_initial rfl

/-- Settles O57: the Cycle Tracker's operations, one by one. -/
theorem linkLawKept : Obligations.LinkLawKept := linkCoherent_keptByOperations.keptByStep

/-! ## Listen-only operation (R159) -/

/-- The law of listen-only operation reads the strap address, the controller, and what the Command Unit and the Sent Set hold. -/
theorem State.listensOnly.congr {s t : State} (hs : s.listensOnly) (hstrap : t.pins.strap = s.pins.strap)
    (hconfig : t.config = s.config) (hslots : t.commands.slots = s.commands.slots)
    (hresponses : t.commands.responses = s.commands.responses)
    (hcredits : t.commands.freeCredits = s.commands.freeCredits) (hdropped : t.commands.dropped = s.commands.dropped)
    (hmalformed : t.commands.malformed = s.commands.malformed)
    (hsent : t.reports.sentResponses = s.reports.sentResponses) : t.listensOnly := by
  unfold State.listensOnly
  rwa [hstrap, hconfig, hslots, hresponses, hcredits, hdropped, hmalformed, hsent]

/-- What leaves the strap address, the controller, the Command Unit and the Sent Set keeps the law. -/
theorem State.listensOnly.of_blocks {s t : State} (hs : s.listensOnly) (hstrap : t.pins.strap = s.pins.strap)
    (hconfig : t.config = s.config) (hcommands : t.commands = s.commands)
    (hsent : t.reports.sentResponses = s.reports.sentResponses) : t.listensOnly :=
  hs.congr hstrap hconfig (by rw [hcommands]) (by rw [hcommands]) (by rw [hcommands]) (by rw [hcommands])
    (by rw [hcommands]) hsent

/-- The law says nothing of a part that has a strap address. -/
theorem listensOnly_of_strap {t : State} (h : t.pins.strap ≠ 0) : t.listensOnly := fun hzero => absurd hzero h

/-- A part that holds a request has a strap address. -/
theorem State.listensOnly.strap_of_next {s : State} {q : Request} (hs : s.listensOnly)
    (hnext : s.commands.next = some q) : s.pins.strap ≠ 0 := by
  intro hzero
  obtain ⟨-, -, -, -, -, hslots, -⟩ := hs hzero
  simp [CommandUnit.next, hslots] at hnext

/-- A build draws nothing from a Command Unit without responses, and has none to return. -/
theorem drawItems_of_no_responses {s : State} (hresponses : s.commands.responses = [])
    (hsent : s.reports.sentResponses = []) :
    (drawItems s).commands = s.commands ∧ (drawItems s).reports.sentResponses = [] := by
  rcases hc : s.commands with ⟨slots, free, responses, dropped, malformed, timer⟩
  rw [hc] at hresponses
  simp_all [drawItems]

theorem applyAcks_of_no_responses {s : State} (acks : List (Byte × Byte)) (hsent : s.reports.sentResponses = []) :
    (applyAcks acks s).commands = s.commands ∧ (applyAcks acks s).reports.sentResponses = [] := by
  unfold applyAcks
  split_ifs
  · simp [hsent]
  · exact ⟨rfl, hsent⟩

theorem listensOnly_keptByOperations : KeptByOperations State.listensOnly where
  same s t h hs := by
    obtain ⟨-, -, -, hreports, hcommands, hconfig, -, -, hstrap⟩ := h
    exact hs.of_blocks hstrap hconfig hcommands (by rw [hreports])
  timers s hs := hs.congr (by simp [advanceTimers]) (by simp) rfl rfl rfl rfl rfl rfl
  enter s phase _ hs := hs.of_blocks rfl rfl rfl rfl
  leave s straps := fun _ => ⟨rfl, rfl, rfl, rfl, rfl, rfl, rfl, rfl, rfl, rfl, rfl⟩
  held s straps := fun _ => ⟨rfl, rfl, rfl, rfl, rfl, rfl, rfl, rfl, rfl, rfl, rfl⟩
  initialised s hs _ := hs.of_blocks rfl rfl rfl rfl
  acks s acks hs := by
    by_cases hzero : s.pins.strap = 0
    · obtain ⟨-, -, -, -, -, -, -, -, -, -, hsent⟩ := hs hzero
      obtain ⟨hcommands, hnone⟩ := applyAcks_of_no_responses acks hsent
      exact hs.of_blocks (by simp) (by simp) hcommands (by rw [hnone, hsent])
    · exact listensOnly_of_strap (by simpa using hzero)
  count s f hs := hs.of_blocks rfl rfl rfl rfl
  ending s e hs _ _ := by
    by_cases hzero : s.pins.strap = 0
    · obtain ⟨-, -, -, -, -, -, hresponses, -, -, -, hsent⟩ := hs hzero
      have hsettled : (settleCycle e s).commands = s.commands ∧ (settleCycle e s).reports = s.reports := by simp
      obtain ⟨hcommands, hnone⟩ := drawItems_of_no_responses (s := settleCycle e s)
        (by rw [hsettled.1, hresponses]) (by rw [hsettled.2, hsent])
      obtain ⟨hreports, -, hcommandUnit⟩ := endCycle_values e s
      obtain ⟨hbuiltReports, -, hbuiltCommands⟩ := buildReport_values (settleCycle e s)
      exact hs.of_blocks (by simp) (by simp) (by rw [hcommandUnit, hbuiltCommands, hcommands, hsettled.1])
        (by rw [hreports, hbuiltReports]; simp [hnone, hsent])
    · exact listensOnly_of_strap (by simpa using hzero)
  resume s n hs _ := hs.of_blocks (by simp) (by simp) (by simp) (by simp)
  start s n hs _ := by
    by_cases hzero : s.pins.strap = 0
    · obtain ⟨-, hcommit, hmode, -⟩ := hs hzero
      have hstart : applyMode (swapBanks (clearIndications s)) = clearIndications s := by
        rw [swapBanks_none (by simpa using hcommit), applyMode_none (by simpa using hmode)]
      obtain ⟨-, -, hconfig, hcommands, -⟩ := startCycle_values n s
      exact hs.of_blocks (by simp) (by simp [hconfig, hstart]) (by simp [hcommands, hstart]) (by simp)
    · exact listensOnly_of_strap (by simpa using hzero)
  mgmt s body _ hstrap := listensOnly_of_strap (by simpa using hstrap)
  classified s c hs := hs.of_blocks rfl rfl rfl rfl
  valid s m i hs _ _ _ := hs.of_blocks (by simp) (by simp) (by simp) (by simp)
  deadline s hs := hs.of_blocks rfl rfl rfl rfl
  stall s hs _ _ := hs.of_blocks (by simp) (by simp) (by simp) (by simp)
  edge s c hs _ := hs.of_blocks rfl rfl rfl rfl
  complete s q outcome reason data hs hnext := listensOnly_of_strap (by simpa using hs.strap_of_next hnext)
  write s q b hs hnext _ := listensOnly_of_strap (by simpa using hs.strap_of_next hnext)
  commit s q hs he _ _ := listensOnly_of_strap (by simpa using hs.strap_of_next he.2.1)
  cancel s tag hs hpending := listensOnly_of_strap fun hzero => by
    obtain ⟨-, hnone, -⟩ := hs (by simpa using hzero)
    simp [hpending] at hnone
  setMode s q mode hs he _ _ := listensOnly_of_strap (by simpa using hs.strap_of_next he.2.1)
  defer s i hs _ _ _ _ := hs.of_blocks (by simp) (by simp) (by simp) (by simp)
  clear s i hs _ _ _ _ _ _ := hs.of_blocks (by simp) (by simp) (by simp) (by simp)
  release s i cause hs _ _ _ := hs.of_blocks (by simp) (by simp) (by simp) (by simp)
  zero s hs := fun hzero => by
    obtain ⟨hmode, hcommit, hpendingMode, ha, hb, hslots, hresponses, hcredits, -, -, hsent⟩ := hs hzero
    exact ⟨hmode, hcommit, hpendingMode, ha, hb, hslots, hresponses, hcredits, rfl, rfl, hsent⟩
  restart s q hs hnext := listensOnly_of_strap (by simpa using hs.strap_of_next hnext)

/-- Settles O58: with strap address 0 no request is ever held, nothing is pending, and no response is there to be sent. -/
theorem listenOnlyKept : Obligations.ListenOnlyKept := listensOnly_keptByOperations.keptByStep

end Sys2Proof.Machine
end

section
/-! PROOF. The credit law is kept by every step: what completes, suspends and frees a holding slot, and what a build and an
acknowledgement do with credits (R155, R156). -/

namespace Sys2Proof.Machine

/-! ## The holding slots -/

/-- The tags of the PENDING slots of a kind among the slots given. -/
def tagsOf (kind : Byte) (slots : List Holding) : List Byte :=
  (slots.filter fun h => h.pending && decide (h.request.kind = kind)).map fun h => h.request.tag

theorem CommandUnit.pendingTags_eq (c : CommandUnit) (kind : Byte) : c.pendingTags kind = tagsOf kind c.slots := rfl

@[simp] theorem tagsOf_nil (kind : Byte) : tagsOf kind [] = [] := rfl

@[simp] theorem tagsOf_append (kind : Byte) (l k : List Holding) : tagsOf kind (l ++ k) = tagsOf kind l ++ tagsOf kind k := by
  simp [tagsOf]

theorem tagsOf_cons_self {kind : Byte} {h : Holding} (hpending : h.pending = true) (hkind : h.request.kind = kind)
    (l : List Holding) : tagsOf kind (h :: l) = h.request.tag :: tagsOf kind l := by
  simp [tagsOf, hpending, hkind]

theorem tagsOf_cons_other {kind : Byte} {h : Holding} (hother : h.pending = false ∨ h.request.kind ≠ kind)
    (l : List Holding) : tagsOf kind (h :: l) = tagsOf kind l := by
  obtain hother | hother := hother <;> simp [tagsOf, hother]

/-- The request that is next is the one that waits behind PENDING slots alone. -/
theorem CommandUnit.split_of_next {c : CommandUnit} {q : Request} (h : c.next = some q) :
    ∃ before after, c.slots = before ++ { request := q, pending := false } :: after ∧
      ∀ g ∈ before, g.pending = true := by
  obtain ⟨⟨request, pending⟩, hfound, rfl⟩ := Option.map_eq_some_iff.mp h
  obtain ⟨hwaits, before, after, hslots, hbefore⟩ := List.find?_eq_some_iff_append.mp hfound
  obtain rfl : pending = false := by simpa using hwaits
  exact ⟨before, after, hslots, fun x hx => by simpa using hbefore x hx⟩

/-- Its slot freed, one fewer is occupied, and nothing PENDING has changed. -/
theorem CommandUnit.finish_slots {c : CommandUnit} {q : Request} (h : c.next = some q) :
    c.finish.slots.length + 1 = c.slots.length ∧ (∀ kind, tagsOf kind c.finish.slots = tagsOf kind c.slots) ∧
    ∀ g ∈ c.finish.slots, g ∈ c.slots := by
  obtain ⟨before, after, hslots, hbefore⟩ := c.split_of_next h
  have hfreed : c.finish.slots = before ++ after := by
    simp only [CommandUnit.finish, hslots]
    rw [List.eraseP_append_right _ (by simpa using hbefore)]
    simp
  refine ⟨by simp [hfreed, hslots]; omega, fun kind => ?_, fun g hg => ?_⟩
  · rw [hfreed, hslots, tagsOf_append, tagsOf_append, tagsOf_cons_other (.inl rfl)]
  · rw [hfreed] at hg
    rw [hslots]
    simp only [List.mem_append, List.mem_cons] at hg ⊢
    tauto

/-- Its slot PENDING, as many are occupied, and its tag is the one that is new, where no other of its kind is PENDING. -/
theorem CommandUnit.suspend_slots {c : CommandUnit} {q : Request} (h : c.next = some q)
    (hnone : tagsOf q.kind c.slots = []) :
    (CommandUnit.suspend c.slots).length = c.slots.length ∧ tagsOf q.kind (CommandUnit.suspend c.slots) = [q.tag] ∧
    (∀ kind, kind ≠ q.kind → tagsOf kind (CommandUnit.suspend c.slots) = tagsOf kind c.slots) ∧
    ∀ g ∈ CommandUnit.suspend c.slots, g ∈ c.slots ∨ g.request = q := by
  obtain ⟨before, after, hslots, hbefore⟩ := c.split_of_next h
  rw [hslots, tagsOf_append, tagsOf_cons_other (.inl rfl), List.append_eq_nil_iff] at hnone
  rw [hslots, CommandUnit.suspend_append hbefore]
  refine ⟨by simp, ?_, fun kind hkind => ?_, fun g hg => ?_⟩
  · rw [tagsOf_append, tagsOf_cons_self (h := { request := q, pending := true }) rfl rfl, hnone.1, hnone.2]
    rfl
  · rw [tagsOf_append, tagsOf_append, tagsOf_cons_other (.inr hkind.symm), tagsOf_cons_other (.inl rfl)]
  · simp only [List.mem_append, List.mem_cons] at hg ⊢
    obtain hg | rfl | hg := hg
    · exact .inl (.inl hg)
    · exact .inr rfl
    · exact .inl (.inr (.inr hg))

/-- The one PENDING slot of a kind freed, one fewer is occupied, none of that kind is PENDING, and the others are as they were. -/
theorem CommandUnit.release_slots {c : CommandUnit} {kind tag : Byte} (h : tagsOf kind c.slots = [tag]) :
    (c.release kind).slots.length + 1 = c.slots.length ∧ tagsOf kind (c.release kind).slots = [] ∧
    (∀ other, other ≠ kind → tagsOf other (c.release kind).slots = tagsOf other c.slots) ∧
    ∀ g ∈ (c.release kind).slots, g ∈ c.slots := by
  obtain ⟨g, hg, -⟩ := List.map_eq_singleton_iff.mp h
  obtain ⟨hmem, hpass⟩ := List.mem_filter.mp (hg ▸ List.mem_singleton_self g)
  obtain ⟨x, older, younger, -, hx, hslots, hfreed⟩ := List.exists_of_eraseP
    (p := fun h => h.pending && decide (h.request.kind = kind)) hmem hpass
  have hfreed : (c.release kind).slots = older ++ younger := hfreed
  simp only [Bool.and_eq_true, decide_eq_true_eq] at hx
  rw [hfreed]
  rw [hslots] at h ⊢
  rw [tagsOf_append, tagsOf_cons_self hx.1 hx.2, List.append_eq_singleton_iff] at h
  refine ⟨by simp; omega, ?_, fun other hother => ?_, fun y hy => ?_⟩
  · obtain ⟨holder, hyounger⟩ | ⟨-, habsurd⟩ := h
    · simp_all
    · simp at habsurd
  · rw [tagsOf_append, tagsOf_append, tagsOf_cons_other (.inr fun hkind => hother (hkind.symm.trans hx.2))]
  · simp only [List.mem_append, List.mem_cons] at hy ⊢
    tauto

/-! ## The law -/

/-- The law reads the holding slots, the numbers of responses and of credits, and what is pending. -/
theorem State.obeysCreditLaw.congr {s t : State} (hs : s.obeysCreditLaw) (hslots : t.commands.slots = s.commands.slots)
    (hsum : t.commands.responses.length + t.reports.sentResponses.length + t.commands.freeCredits =
      s.commands.responses.length + s.reports.sentResponses.length + s.commands.freeCredits)
    (hcommit : t.config.pendingCommit = s.config.pendingCommit) (hmode : t.config.pendingMode = s.config.pendingMode) :
    t.obeysCreditLaw := by
  obtain ⟨hcredits, hheld, hcommits, hmodes, hkinds⟩ := hs
  refine ⟨by rw [hslots]; omega, by rwa [hslots], ?_, ?_, by rwa [hslots]⟩
  · rwa [CommandUnit.pendingTags_eq, hslots, hcommit]
  · rwa [CommandUnit.pendingTags_eq, hslots, hmode]

/-- What leaves the Command Unit, the Sent Set and what is pending keeps the law. -/
theorem State.obeysCreditLaw.of_blocks {s t : State} (hs : s.obeysCreditLaw) (hcommands : t.commands = s.commands)
    (hreports : t.reports = s.reports) (hconfig : t.config = s.config) : t.obeysCreditLaw :=
  hs.congr (by rw [hcommands]) (by rw [hcommands, hreports]) (by rw [hconfig]) (by rw [hconfig])

/-- With no request, no response and nothing pending, and the credits free. -/
theorem obeysCreditLaw_of_initial {t : State} (hcommands : t.commands = .initial) (hsent : t.reports.sentResponses = [])
    (hcommit : t.config.pendingCommit = none) (hmode : t.config.pendingMode = none) : t.obeysCreditLaw := by
  simp [State.obeysCreditLaw, hcommands, hsent, hcommit, hmode, CommandUnit.initial, CommandUnit.pendingTags]

/-- The slot of the request given is freed, and a response posted in its place (R156). -/
theorem State.obeysCreditLaw.finished {s t : State} {q : Request} (hs : s.obeysCreditLaw)
    (hnext : s.commands.next = some q) (hslots : t.commands.slots = s.commands.finish.slots)
    (hresponses : t.commands.responses.length = s.commands.responses.length + 1)
    (hcredits : t.commands.freeCredits = s.commands.freeCredits) (hreports : t.reports = s.reports)
    (hconfig : t.config = s.config) : t.obeysCreditLaw := by
  obtain ⟨hsum, hheld, hcommits, hmodes, hkinds⟩ := hs
  obtain ⟨hlength, htags, hmem⟩ := CommandUnit.finish_slots hnext
  rw [CommandUnit.pendingTags_eq] at hcommits hmodes
  refine ⟨by rw [hslots, hresponses, hcredits, hreports]; omega, by rw [hslots]; omega, ?_, ?_, fun h hh => ?_⟩
  · rw [CommandUnit.pendingTags_eq, hslots, htags, hconfig, hcommits]
  · rw [CommandUnit.pendingTags_eq, hslots, htags, hconfig, hmodes]
  · exact hkinds h (hmem h (hslots ▸ hh))

theorem commit_ne_setMode : RequestKind.setMode.code ≠ RequestKind.commit.code := by decide

/-- The pending commit's slot is freed, and its response posted in its place (R145, R143). -/
theorem State.obeysCreditLaw.commit_released {s t : State} {tag : Byte} (hs : s.obeysCreditLaw)
    (hpending : s.config.pendingCommit = some tag)
    (hslots : t.commands.slots = (s.commands.release RequestKind.commit.code).slots)
    (hresponses : t.commands.responses.length = s.commands.responses.length + 1)
    (hcredits : t.commands.freeCredits = s.commands.freeCredits) (hreports : t.reports = s.reports)
    (hnone : t.config.pendingCommit = none) (hmode : t.config.pendingMode = s.config.pendingMode) :
    t.obeysCreditLaw := by
  obtain ⟨hsum, hheld, hcommits, hmodes, hkinds⟩ := hs
  rw [CommandUnit.pendingTags_eq] at hcommits hmodes
  obtain ⟨hlength, hfreed, hothers, hmem⟩ := CommandUnit.release_slots (tag := tag) (hcommits.trans (by simp [hpending]))
  refine ⟨by rw [hslots, hresponses, hcredits, hreports]; omega, by rw [hslots]; omega, ?_, ?_, fun h hh => ?_⟩
  · rw [CommandUnit.pendingTags_eq, hslots, hfreed, hnone]
    rfl
  · rw [CommandUnit.pendingTags_eq, hslots, hothers _ commit_ne_setMode, hmode, hmodes]
  · exact hkinds h (hmem h (hslots ▸ hh))

/-- The pending mode change's slot is freed, and its response posted in its place (R151). -/
theorem State.obeysCreditLaw.mode_released {s t : State} {change : Mode × Byte} (hs : s.obeysCreditLaw)
    (hpending : s.config.pendingMode = some change)
    (hslots : t.commands.slots = (s.commands.release RequestKind.setMode.code).slots)
    (hresponses : t.commands.responses.length = s.commands.responses.length + 1)
    (hcredits : t.commands.freeCredits = s.commands.freeCredits) (hreports : t.reports = s.reports)
    (hnone : t.config.pendingMode = none) (hcommit : t.config.pendingCommit = s.config.pendingCommit) :
    t.obeysCreditLaw := by
  obtain ⟨hsum, hheld, hcommits, hmodes, hkinds⟩ := hs
  rw [CommandUnit.pendingTags_eq] at hcommits hmodes
  obtain ⟨hlength, hfreed, hothers, hmem⟩ := CommandUnit.release_slots (tag := change.2) (hmodes.trans (by simp [hpending]))
  refine ⟨by rw [hslots, hresponses, hcredits, hreports]; omega, by rw [hslots]; omega, ?_, ?_, fun h hh => ?_⟩
  · rw [CommandUnit.pendingTags_eq, hslots, hothers _ commit_ne_setMode.symm, hcommit, hcommits]
  · rw [CommandUnit.pendingTags_eq, hslots, hfreed, hnone]
    rfl
  · exact hkinds h (hmem h (hslots ▸ hh))

/-! ## What moves a credit -/

/-- An acknowledgement returns the credits of the responses it takes out of the Sent Set (R126). -/
theorem applyAcks_credits (acks : List (Byte × Byte)) (s : State) :
    (applyAcks acks s).commands.slots = s.commands.slots ∧
    (applyAcks acks s).commands.responses.length + (applyAcks acks s).reports.sentResponses.length +
      (applyAcks acks s).commands.freeCredits =
      s.commands.responses.length + s.reports.sentResponses.length + s.commands.freeCredits := by
  unfold applyAcks
  split_ifs
  · simp
    omega
  · exact ⟨rfl, rfl⟩

/-- A build moves responses into the Sent Set, and returns the credits of those it abandons (R115, R118). -/
theorem drawItems_credits (s : State) :
    (drawItems s).commands.slots = s.commands.slots ∧
    (drawItems s).commands.responses.length + (drawItems s).reports.sentResponses.length +
      (drawItems s).commands.freeCredits =
      s.commands.responses.length + s.reports.sentResponses.length + s.commands.freeCredits := by
  have hkept : (s.reports.sentResponses.filter SentResponse.isRetained).length ≤ s.reports.sentResponses.length :=
    List.length_filter_le _ _
  refine ⟨rfl, ?_⟩
  simp only [drawItems, State.withCommands_commands, State.withCommands_reports, State.withQueue_reports,
    State.withReports_reports, List.length_drop, List.length_take, List.length_append, List.length_map]
  omega

theorem endCycle_credits (e : CycleEnding) (s : State) :
    (endCycle e s).commands.slots = s.commands.slots ∧
    (endCycle e s).commands.responses.length + (endCycle e s).reports.sentResponses.length +
      (endCycle e s).commands.freeCredits =
      s.commands.responses.length + s.reports.sentResponses.length + s.commands.freeCredits := by
  obtain ⟨hreports, -, hcommands⟩ := endCycle_values e s
  obtain ⟨hbuiltReports, -, hbuiltCommands⟩ := buildReport_values (settleCycle e s)
  have hdrawn := drawItems_credits (settleCycle e s)
  rw [hreports, hcommands, hbuiltReports, hbuiltCommands]
  simpa using hdrawn

theorem swapBanks_obeysCreditLaw {s : State} (hs : s.obeysCreditLaw) : (swapBanks s).obeysCreditLaw := by
  cases hpending : s.config.pendingCommit with
  | none => rwa [swapBanks_none hpending]
  | some tag =>
    exact hs.commit_released hpending (by rw [swapBanks_commands hpending]; rfl)
      (by rw [swapBanks_commands hpending]; simp [CommandUnit.respond, CommandUnit.release])
      (by rw [swapBanks_commands hpending]; rfl) (by simp) (by rw [swapBanks_config hpending])
      (by rw [swapBanks_config hpending])

theorem completeMode_obeysCreditLaw {s : State} (change : Mode × Byte) (hs : s.obeysCreditLaw)
    (hpending : s.config.pendingMode = some change) (tag : Byte) (outcome : RequestOutcome) (reason : Reason) :
    (completeMode tag outcome reason s).obeysCreditLaw :=
  hs.mode_released hpending rfl (by simp [CommandUnit.respond, CommandUnit.release]) rfl rfl rfl rfl

theorem applyMode_obeysCreditLaw {s : State} (hs : s.obeysCreditLaw) : (applyMode s).obeysCreditLaw := by
  cases hpending : s.config.pendingMode with
  | none => rwa [applyMode_none hpending]
  | some change =>
    obtain ⟨mode, tag⟩ := change
    cases mode with
    | standby =>
      rw [applyMode_standby hpending]
      exact completeMode_obeysCreditLaw (.standby, tag) (hs.congr (by simp) (by simp) (by simp) (by simp))
        (by simpa using hpending) _ _ _
    | monitor =>
      rw [applyMode_monitor hpending]
      split_ifs
      · exact completeMode_obeysCreditLaw (.monitor, tag) (hs.congr (by simp) (by simp) (by simp) (by simp))
          (by simpa using hpending) _ _ _
      · exact completeMode_obeysCreditLaw _ hs hpending _ _ _

theorem takeMgmt_obeysCreditLaw {s : State} (body : List Byte) (hs : s.obeysCreditLaw) :
    (takeMgmt body s).obeysCreditLaw := by
  unfold takeMgmt
  split
  · split_ifs with hfree
    · obtain ⟨hsum, hheld, hcommits, hmodes, hkinds⟩ := hs
      rw [CommandUnit.pendingTags_eq] at hcommits hmodes
      refine ⟨?_, ?_, ?_, ?_, fun h hh hpending => ?_⟩
      · simp [acceptRequest] at hsum ⊢
        omega
      · simp [acceptRequest, Config.holdingSlots] at hfree ⊢
        omega
      · simpa [CommandUnit.pendingTags_eq, acceptRequest, tagsOf_cons_other] using hcommits
      · simpa [CommandUnit.pendingTags_eq, acceptRequest, tagsOf_cons_other] using hmodes
      · simp only [State.withCommands_commands, acceptRequest, List.mem_append, List.mem_singleton] at hh
        obtain hh | rfl := hh
        · exact hkinds h hh hpending
        · simp at hpending
    · exact hs.congr rfl rfl rfl rfl
  · exact hs.congr rfl rfl rfl rfl

/-- The executing request becomes PENDING: no credit moves, and its tag is pending now (R140, R150, R160). -/
theorem suspendRequest_obeysCreditLaw {s : State} {q : Request} {k : RequestKind} (hs : s.obeysCreditLaw)
    (hexec : s.executes q (some k)) (c : ConfigController)
    (hnew : k = .commit ∧ s.config.pendingCommit = none ∧ c = { s.config with pendingCommit := some q.tag } ∨
      k = .setMode ∧ s.config.pendingMode = none ∧ ∃ m, c = { s.config with pendingMode := some (m, q.tag) }) :
    (suspendRequest (s.withConfig c)).obeysCreditLaw := by
  obtain ⟨hsum, hheld, hcommits, hmodes, hkinds⟩ := hs
  obtain ⟨-, hnext, hkind, -⟩ := hexec
  have hkind : q.kind = k.code := kind_eq_code hkind
  rw [CommandUnit.pendingTags_eq] at hcommits hmodes
  have hnone : tagsOf q.kind s.commands.slots = [] := by
    obtain ⟨rfl, hpending, -⟩ | ⟨rfl, hpending, -⟩ := hnew
    · rw [hkind, hcommits, hpending]
      rfl
    · rw [hkind, hmodes, hpending]
      rfl
  obtain ⟨hlength, hself, hothers, hmem⟩ := CommandUnit.suspend_slots hnext hnone
  have hslots : (suspendRequest (s.withConfig c)).commands.slots = CommandUnit.suspend s.commands.slots := rfl
  refine ⟨?_, by rw [hslots, hlength]; exact hheld, ?_, ?_, fun h hh hpending => ?_⟩
  · rw [hslots, hlength]
    exact hsum
  · rw [CommandUnit.pendingTags_eq, hslots]
    obtain ⟨rfl, -, rfl⟩ | ⟨rfl, -, m, rfl⟩ := hnew
    · rw [← hkind, hself]
      rfl
    · rw [hothers _ (hkind ▸ commit_ne_setMode.symm), hcommits]
      rfl
  · rw [CommandUnit.pendingTags_eq, hslots]
    obtain ⟨rfl, -, rfl⟩ | ⟨rfl, -, m, rfl⟩ := hnew
    · rw [hothers _ (hkind ▸ commit_ne_setMode), hmodes]
      rfl
    · rw [← hkind, hself]
      rfl
  · obtain hold | rfl := hmem h hh
    · exact hkinds h hold hpending
    · rw [hkind]
      obtain ⟨rfl, -⟩ | ⟨rfl, -⟩ := hnew
      · exact .inl rfl
      · exact .inr rfl

theorem obeysCreditLaw_keptByOperations : KeptByOperations State.obeysCreditLaw where
  same s t h hs := by
    obtain ⟨-, -, -, hreports, hcommands, hconfig, -⟩ := h
    exact hs.of_blocks hcommands hreports hconfig
  timers s hs := hs.congr rfl rfl rfl rfl
  enter s phase _ hs := hs.of_blocks rfl rfl rfl
  leave s straps := obeysCreditLaw_of_initial rfl rfl rfl rfl
  held s straps := obeysCreditLaw_of_initial rfl rfl rfl rfl
  initialised s hs _ := hs.of_blocks rfl rfl rfl
  acks s acks hs := by
    obtain ⟨hslots, hsum⟩ := applyAcks_credits acks s
    exact hs.congr hslots hsum (by simp) (by simp)
  count s f hs := hs.of_blocks rfl rfl rfl
  ending s e hs _ _ := by
    obtain ⟨hslots, hsum⟩ := endCycle_credits e s
    exact hs.congr hslots hsum (by simp) (by simp)
  resume s n hs _ := hs.of_blocks (by simp) (by simp) (by simp)
  start s n hs _ := by
    obtain ⟨-, -, hconfig, hcommands, -⟩ := startCycle_values n s
    have hcleared : (clearIndications s).obeysCreditLaw := hs.of_blocks (by simp) (by simp) (by simp)
    exact (applyMode_obeysCreditLaw (swapBanks_obeysCreditLaw hcleared)).of_blocks hcommands (by simp) hconfig
  mgmt s body hs _ := takeMgmt_obeysCreditLaw body hs
  classified s c hs := hs.of_blocks rfl rfl rfl
  valid s m i hs _ _ _ := hs.of_blocks (by simp) (by simp) (by simp)
  deadline s hs := hs.of_blocks rfl rfl rfl
  stall s hs _ _ := hs.of_blocks (by simp) (by simp) (by simp)
  edge s c hs _ := hs.of_blocks rfl rfl rfl
  complete s q outcome reason data hs hnext :=
    hs.finished hnext rfl (by simp [complete, CommandUnit.respond, CommandUnit.finish]) rfl rfl rfl
  write s q b hs _ _ := hs.congr (by simp) (by simp) (by simp) (by simp)
  commit s q hs he hpending _ := suspendRequest_obeysCreditLaw hs he _ (.inl ⟨rfl, hpending, rfl⟩)
  cancel s tag hs hpending :=
    hs.commit_released hpending rfl (by simp [cancelCommit, CommandUnit.respond, CommandUnit.release]) rfl rfl rfl rfl
  setMode s q mode hs he hpending _ := suspendRequest_obeysCreditLaw hs he _ (.inr ⟨rfl, hpending, mode, rfl⟩)
  defer s i hs _ _ _ _ := hs.of_blocks (by simp) (by simp) (by simp)
  clear s i hs _ _ _ _ _ _ := hs.of_blocks (by simp) (by simp) (by simp)
  release s i cause hs _ _ _ := hs.of_blocks (by simp) (by simp) (by simp)
  zero s hs := hs.congr rfl rfl rfl rfl
  restart s q _ _ := by
    simp [State.obeysCreditLaw, CommandUnit.pendingTags, runRestart, restartBlocks,
      ReportBuilder.initial, CommandUnit.respond, CommandUnit.initial]

/-- Settles O50: every request holds one credit from its acceptance until its response is acknowledged or abandoned. -/
theorem creditLawKept : Obligations.CreditLawKept := obeysCreditLaw_keptByOperations.keptByStep

end Sys2Proof.Machine
end

section
/-! PROOF. What must be shown of a law that reads the slots, the entries, the controller and the strap address alone, and the
law of the configuration (R139, R142, R150). -/

namespace Sys2Proof.Machine

/-! ## Laws of the slots, the entries and the controller -/

/-- Two states with the same entries, controller and strap address, whose slots differ at most in their totals and
indications. -/
def State.sameEngines (s t : State) : Prop :=
  (∀ i, ∃ total indication, t.slot i = { s.slot i with validTotal := total, indication := indication }) ∧
  (∀ i, t.entry i = s.entry i) ∧ t.config = s.config ∧ t.pins.strap = s.pins.strap

theorem State.sameEngines_of {s t : State} (hslots : ∀ i, t.slot i = s.slot i) (hentries : ∀ i, t.entry i = s.entry i)
    (hconfig : t.config = s.config) (hstrap : t.pins.strap = s.pins.strap) : s.sameEngines t :=
  ⟨fun i => ⟨_, _, hslots i⟩, hentries, hconfig, hstrap⟩

theorem State.sameEngines.banks {s t : State} (h : s.sameEngines t) :
    t.activeBank = s.activeBank ∧ t.shadowBank = s.shadowBank ∧ (∀ i, t.slotRecord i = s.slotRecord i) ∧
    (∀ i, t.entryRecord i = s.entryRecord i) := by
  obtain ⟨-, -, hconfig, -⟩ := h
  simp [State.activeBank, State.shadowBank, State.slotRecord, State.entryRecord, hconfig]

theorem State.sameEngines.health {s t : State} (h : s.sameEngines t) (i : Fin 32) :
    (t.slot i).health = (s.slot i).health := by
  obtain ⟨total, indication, hi⟩ := h.1 i
  rw [hi]

/-- The operations on the slots, the entries and the controller keep a law that reads nothing else but the strap address. -/
structure KeptByEngines (law : State → Prop) : Prop where
  same : ∀ s t, s.sameEngines t → law s → law t
  reset : ∀ t, (∀ i, t.slot i = .cleared) → (∀ i, t.entry i = .cleared) → t.config = .initial → law t
  restart : ∀ s t, law s → (∀ i, t.slot i = .cleared) → (∀ i, t.entry i = .cleared) → t.config = { s.config with
    pendingCommit := none, lastCommit := none, mode := .standby, pendingMode := none } →
    t.pins.strap = s.pins.strap → law t
  cycleEnd : ∀ s, law s → law (evaluateCycleEnd s)
  stalled : ∀ s, law s → law (stallSlots s)
  swap : ∀ s tag, law s → s.config.pendingCommit = some tag → law (swapBanks s)
  mode : ∀ s change, law s → s.config.pendingMode = some change → law (applyMode s)
  valid : ∀ s m i, law s → s.config.mode = .monitor → s.findsValid m i → law (takeValid i m s)
  write : ∀ s b, law s → s.config.pendingCommit = none → law (s.withShadowBank b)
  commit : ∀ s tag, law s → validate s.shadowBank s.pins.strap = none →
    law (s.withConfig { s.config with pendingCommit := some tag })
  cancel : ∀ s, law s → law (s.withConfig { s.config with pendingCommit := none })
  setMode : ∀ s change, law s → change.1 ≠ s.config.mode →
    law (s.withConfig { s.config with pendingMode := some change })
  defer : ∀ s i, law s → s.config.mode = .monitor → (s.entryRecord i).used = true →
    (s.entryRecord i).mode = .latched → s.entry i = { condition := .inWindow, latch := .set } →
    law (s.withEntry i { condition := .inWindow, latch := .deferred })
  clear : ∀ s i, law s → s.config.mode = .monitor → (s.entryRecord i).used = true →
    (s.entryRecord i).mode = .latched → (s.entry i).latch = .set → (s.entry i).condition ≠ .inWindow →
    law (s.withEntry i { s.entry i with latch := .idle })
  release : ∀ s i cause, law s → s.config.mode = .monitor → (s.slot i).health = .faulted cause →
    law (s.withSlot i { s.slot i with health := .acquiring })

/-- A stall is the stalling of the slots in a state that differs from the first in the link and the queue. -/
theorem stall_eq (s : State) : ∃ u, stall s = settleLines (stallSlots u) ∧ s.sameEngines u :=
  ⟨_, rfl, State.sameEngines_of (by simp) (by simp) (by simp) (by simp)⟩

theorem KeptByEngines.keptByOperations {law : State → Prop} (k : KeptByEngines law) : KeptByOperations law where
  same s t h hs := by
    obtain ⟨-, -, -, -, hslots, hentries, -⟩ := h.readers
    obtain ⟨-, -, -, -, -, hconfig, -, -, hstrap⟩ := h
    exact k.same s t (State.sameEngines_of (by simp [hslots]) (by simp [hentries]) hconfig hstrap) hs
  timers s hs := k.same s _ (State.sameEngines_of (by simp) (by simp) (by simp) (by simp [advanceTimers])) hs
  enter s phase _ hs := k.same s _ (State.sameEngines_of (fun _ => rfl) (fun _ => rfl) rfl rfl) hs
  leave s straps := k.reset _ (State.slot_of_initial rfl) (State.entry_of_initial rfl) rfl
  held s straps := k.reset _ (State.slot_of_initial rfl) (State.entry_of_initial rfl) rfl
  initialised s hs _ := k.same s _ (State.sameEngines_of (fun _ => rfl) (fun _ => rfl) rfl rfl) hs
  acks s acks hs := k.same s _ (State.sameEngines_of (by simp) (by simp) (by simp) (by simp)) hs
  count s f hs := k.same s _ (State.sameEngines_of (by simp) (by simp) (by simp) (by simp)) hs
  ending s e hs _ _ := by
    refine k.same (evaluateCycleEnd s) _ (State.sameEngines_of (by simp) (fun j => ?_) (by simp) (by simp)) (k.cycleEnd s hs)
    rw [endCycle_entry, evaluateCycleEnd_entry]
  resume s n hs _ := k.same s _ (State.sameEngines_of (by simp) (by simp) (by simp) (by simp)) hs
  start s n hs _ := by
    have hcleared : law (clearIndications s) :=
      k.same s _ ⟨fun i => ⟨(s.slot i).validTotal, false, by simp⟩, by simp, by simp, by simp⟩ hs
    have hswapped : law (swapBanks (clearIndications s)) := by
      cases hpending : (clearIndications s).config.pendingCommit with
      | none => rwa [swapBanks_none hpending]
      | some tag => exact k.swap _ tag hcleared hpending
    have happlied : law (applyMode (swapBanks (clearIndications s))) := by
      cases hpending : (swapBanks (clearIndications s)).config.pendingMode with
      | none => rwa [applyMode_none hpending]
      | some change => exact k.mode _ change hswapped hpending
    obtain ⟨hslots, hentries, hconfig, -, -⟩ := startCycle_values n s
    exact k.same _ _ (State.sameEngines_of hslots hentries hconfig (by simp)) happlied
  mgmt s body hs _ := k.same s _ (State.sameEngines_of (by simp) (by simp) (by simp) (by simp)) hs
  classified s c hs := k.same s _ (State.sameEngines_of (fun _ => rfl) (fun _ => rfl) rfl rfl) hs
  valid s m i hs _ hmode hvalid :=
    k.same (takeValid i m s) _ (State.sameEngines_of (by simp) (by simp) (by simp) (by simp)) (k.valid s m i hs hmode hvalid)
  deadline s hs := k.same s _ (State.sameEngines_of (by simp) (by simp) (by simp) (by simp)) hs
  stall s hs _ _ := by
    obtain ⟨u, hstall, hu⟩ := stall_eq s
    rw [hstall]
    exact k.same (stallSlots u) _ (State.sameEngines_of (by simp) (by simp) (by simp) (by simp))
      (k.stalled u (k.same s u hu hs))
  edge s c hs _ := k.same s _ (State.sameEngines_of (fun _ => rfl) (fun _ => rfl) rfl rfl) hs
  complete s q outcome reason data hs _ :=
    k.same s _ (State.sameEngines_of (by simp) (by simp) (by simp) (by simp)) hs
  write s q b hs _ hnone := k.write s b hs hnone
  commit s q hs _ _ hvalid :=
    k.same _ _ (State.sameEngines_of (by simp) (by simp) (by simp) (by simp)) (k.commit s q.tag hs hvalid)
  cancel s tag hs _ := k.same (s.withConfig { s.config with pendingCommit := none }) _ (State.sameEngines_of (fun _ => rfl) (fun _ => rfl) rfl rfl)
    (k.cancel s hs)
  setMode s q mode hs _ _ hmode :=
    k.same _ _ (State.sameEngines_of (by simp) (by simp) (by simp) (by simp)) (k.setMode s (mode, q.tag) hs hmode)
  defer := k.defer
  clear s i hs _ hmode hused hlatched hset hout :=
    k.same _ _ (State.sameEngines_of (by simp [clearAcknowledged]) (by simp) (by simp) (by simp))
      (k.clear s i hs hmode hused hlatched hset hout)
  release s i cause hs _ hmode hfaulted :=
    k.same _ _ (State.sameEngines_of (by simp) (by simp [releaseSlot]) (by simp) (by simp))
      (k.release s i cause hs hmode hfaulted)
  zero s hs := k.same s _ ⟨fun i => ⟨0, (s.slot i).indication, by simp⟩, fun _ => rfl, rfl, rfl⟩ hs
  restart s q hs _ := k.restart s _ hs (State.slot_of_initial rfl) (State.entry_of_initial rfl) rfl (by simp)

/-- A law that these operations keep is kept by every step. -/
theorem KeptByEngines.keptByStep {law : State → Prop} (k : KeptByEngines law) : KeptByStep law :=
  k.keptByOperations.keptByStep

/-! ## What a mode change leaves in the controller (R151) -/

/-- The mode that stands when a pending mode change has been applied: a change to MONITOR is refused for want of a configured
slot. -/
def State.modeToBe (s : State) : Mode :=
  match s.config.pendingMode with
  | none => s.config.mode
  | some (.standby, _) => .standby
  | some (.monitor, _) => if s.activeBank.hasConfigured then .monitor else s.config.mode

theorem applyMode_config (s : State) :
    (applyMode s).config = { s.config with mode := s.modeToBe, pendingMode := none } := by
  rcases hpending : s.config.pendingMode with _ | ⟨mode, tag⟩
  · rw [applyMode_none hpending, State.modeToBe, hpending]
    dsimp only
    rw [← hpending]
  · cases mode with
    | standby => simp [applyMode_standby hpending, State.modeToBe, hpending]
    | monitor =>
      rw [applyMode_monitor hpending, State.modeToBe, hpending]
      dsimp only
      split_ifs <;> simp

/-! ## The configuration (R139, R142, R150) -/

/-- Validation finds no fault exactly when no record fails a check (R141). -/
theorem validate_eq_none_iff (b : Bank) (strap : Strap) : validate b strap = none ↔
    (∀ i, slotFailure b strap i = none) ∧ (∀ i, entryFailure b i = none) ∧ linkFailure b.link = none := by
  unfold validate
  split
  · rename_i f hslot
    obtain ⟨i, -, hi⟩ := List.exists_of_findSome?_eq_some hslot
    simp only [reduceCtorEq, false_iff]
    rintro ⟨hslots, -⟩
    simp [hslots] at hi
  · rename_i hslots
    split
    · rename_i f hentry
      obtain ⟨i, -, hi⟩ := List.exists_of_findSome?_eq_some hentry
      simp only [reduceCtorEq, false_iff]
      rintro ⟨-, hentries, -⟩
      simp [hentries] at hi
    · rename_i hentries
      simp only [List.findSome?_eq_none_iff, List.mem_finRange, Option.map_eq_none_iff, true_implies] at hslots hentries
      simp [hslots, hentries]

/-- No check finds fault with an empty bank, whatever the strap address (R132, R141). -/
theorem validate_empty (strap : Strap) : validate .empty strap = none := by
  have hslot : ∀ i : Fin 32, Bank.empty.slots[i] = .empty := by simp [Bank.empty]
  have hentry : ∀ i : Fin 64, Bank.empty.entries[i] = .empty := by simp [Bank.empty]
  rw [validate_eq_none_iff]
  refine ⟨fun i => ?_, fun i => ?_, by decide⟩
  · simp only [slotFailure, hslot]
    exact if_neg (by decide)
  · simp only [entryFailure, hentry]
    exact if_neg (by decide)

/-- The law reads the two banks, what is pending and the mode, and the strap address. -/
theorem State.configurationLawful.congr {s t : State} (hs : s.configurationLawful)
    (hbanks : t.activeBank = s.activeBank ∧ t.shadowBank = s.shadowBank)
    (hcommit : t.config.pendingCommit = s.config.pendingCommit ∨ t.config.pendingCommit = none)
    (hmode : t.config.pendingMode = none ∨
      t.config.pendingMode = s.config.pendingMode ∧ t.config.mode = s.config.mode)
    (hstrap : t.pins.strap = s.pins.strap) : t.configurationLawful := by
  obtain ⟨hactive, hshadow, hchange⟩ := hs
  refine ⟨by rwa [hbanks.1, hstrap], fun hpending => ?_, fun mode tag hpending => ?_⟩
  · rw [hbanks.2, hstrap]
    obtain hcommit | hcommit := hcommit
    · exact hshadow (hcommit ▸ hpending)
    · simp [hcommit] at hpending
  · obtain hnone | ⟨hsame, hstill⟩ := hmode
    · simp [hnone] at hpending
    · rw [hstill]
      exact hchange mode tag (hsame ▸ hpending)

theorem State.configurationLawful.of_config {s t : State} (hs : s.configurationLawful) (hconfig : t.config = s.config)
    (hstrap : t.pins.strap = s.pins.strap) : t.configurationLawful :=
  hs.congr (by simp [State.activeBank, State.shadowBank, hconfig]) (.inl (by rw [hconfig]))
    (.inr (by simp [hconfig])) hstrap

theorem configurationLawful_keptByEngines : KeptByEngines State.configurationLawful where
  same s t h hs := hs.of_config h.2.2.1 h.2.2.2
  reset t _ _ hconfig := by
    refine ⟨?_, fun hpending => ?_, fun mode tag hpending => ?_⟩
    · simp [State.activeBank, hconfig, ConfigController.initial, ConfigController.bank, validate_empty]
    · simp [hconfig, ConfigController.initial] at hpending
    · simp [hconfig, ConfigController.initial] at hpending
  restart s t hs _ _ hconfig hstrap :=
    hs.congr (State.activeBank_congr (by rw [hconfig]) (by rw [hconfig]) (by rw [hconfig])) (.inr (by rw [hconfig]))
      (.inl (by rw [hconfig])) hstrap
  cycleEnd s hs := hs.of_config (by simp) (by simp)
  stalled s hs := hs.of_config (by simp) (by simp)
  swap s tag hs hpending := by
    obtain ⟨hactive, hshadow, hchange⟩ := hs
    obtain ⟨hnew, -⟩ := swapBanks_activeBank hpending
    have hconfig := swapBanks_config hpending
    refine ⟨?_, fun hnone => ?_, fun mode tag' hmode => ?_⟩
    · rw [hnew, (swapBanks_keeps s).2.2.2.1]
      exact hshadow (by simp [hpending])
    · simp [hconfig] at hnone
    · rw [hconfig] at hmode ⊢
      exact hchange mode tag' hmode
  mode s change hs _ :=
    hs.congr (applyMode_banks s) (.inl (by rw [applyMode_config])) (.inl (by rw [applyMode_config])) (by simp)
  valid s m i hs _ _ := hs.of_config (by simp) (by simp)
  write s b hs hnone := by
    obtain ⟨hactive, -, hchange⟩ := hs
    refine ⟨by simpa using hactive, fun hpending => ?_, fun mode tag hpending => ?_⟩
    · simp [hnone] at hpending
    · simpa using hchange mode tag (by simpa using hpending)
  commit s tag hs hvalid := ⟨hs.1, fun _ => hvalid, hs.2.2⟩
  cancel s hs := hs.congr ⟨rfl, rfl⟩ (.inr rfl) (.inr ⟨rfl, rfl⟩) rfl
  setMode s change hs hmode := by
    refine ⟨hs.1, hs.2.1, fun mode tag hpending => ?_⟩
    obtain rfl : change = (mode, tag) := Option.some.inj hpending
    exact hmode
  defer s i hs _ _ _ _ := hs.of_config (by simp) (by simp)
  clear s i hs _ _ _ _ _ := hs.of_config (by simp) (by simp)
  release s i cause hs _ _ := hs.of_config (by simp) (by simp)

/-- Settles O53: a bank becomes active only when a commit is pending, while it was validated and cannot be written. -/
theorem configurationLawKept : Obligations.ConfigurationLawKept := configurationLawful_keptByEngines.keptByStep

end Sys2Proof.Machine
end

section
/-! PROOF. The health law of the slots and the law of their counts are kept by every step (R9, R21 to R40, R147). -/

namespace Sys2Proof.Machine

/-! ## One slot: coherence -/

/-- A slot UNUSED or ACQUIRING with nothing counted is coherent. -/
theorem restartIn_coherent (d : SlotState) {h : Health} (hh : h = .unused ∨ h = .acquiring) :
    (d.restartIn h).coherent := by
  obtain rfl | rfl := hh <;> simp [SlotState.coherent, SlotState.restartIn, SlotState.quiet, Health.isJudged, Health.inPair]

theorem cleared_coherent : SlotState.cleared.coherent := restartIn_coherent .cleared (.inl rfl)

theorem enterFaulted_coherent (d : SlotState) (cause : FaultCause) : (d.enterFaulted cause).coherent := by
  simp [SlotState.coherent, SlotState.enterFaulted, SlotState.quiet, Health.isJudged, Health.inPair]

/-- What a slot's coherence says while its judgement is under way: it is in SETTLING, TRACKING or SUSPECT, with a hold in
SETTLING alone, and neither a rate nor a mismatch count there. -/
def SlotState.underJudgement (d : SlotState) : Prop :=
  d.health.isJudged = true ∧ (d.health ≠ .settling → d.hold = 0) ∧
  (d.health = .settling → d.rate = 0 ∧ d.mismatch = 0)

theorem SlotState.coherent.underJudgement {d : SlotState} (h : d.coherent) (hjudged : d.health.isJudged = true) :
    d.underJudgement := ⟨hjudged, h.2.2.1, h.2.2.2.1⟩

/-- A slot under judgement that has a position and follows its counts is coherent. -/
theorem SlotState.underJudgement.coherent {d : SlotState} (h : d.underJudgement) (hposition : d.lastPosition.isSome = true)
    (htracking : d.health = .tracking → d.quiet = true) (hsuspect : d.health = .suspect → d.quiet = false) :
    d.coherent :=
  ⟨htracking, hsuspect, h.2.1, h.2.2, fun hnot => absurd h.1 (by simp [hnot]), fun _ => hposition⟩

theorem Health.inPair_iff (h : Health) : h.inPair = true ↔ h = .tracking ∨ h = .suspect := by
  cases h <;> simp [Health.inPair]

theorem Health.isJudged_iff (h : Health) : h.isJudged = true ↔ h = .settling ∨ h = .tracking ∨ h = .suspect := by
  simp [Health.isJudged, Health.inPair_iff]

theorem Health.not_settling_of_inPair {h : Health} (hpair : h.inPair = true) : h ≠ .settling := by
  rintro rfl
  simp [Health.inPair] at hpair

/-- Following its counts, a slot of the pair is in TRACKING exactly when they are zero (R37). -/
theorem follow_of_inPair {d : SlotState} (h : d.health.inPair = true) :
    d.follow = { d with health := if d.quiet then .tracking else .suspect } := if_pos h

theorem follow_of_not_inPair {d : SlotState} (h : d.health.inPair = false) : d.follow = d :=
  if_neg (by simp [h])

/-- A slot of the pair that follows its counts is coherent. -/
theorem follow_coherent {d : SlotState} (hpair : d.health.inPair = true) (hhold : d.hold = 0)
    (hposition : d.lastPosition.isSome = true) : d.follow.coherent := by
  rw [follow_of_inPair hpair]
  cases hquiet : d.quiet
  · simp_all [SlotState.coherent, SlotState.quiet, Health.isJudged, Health.inPair]
  · simp_all [SlotState.coherent, SlotState.quiet, Health.isJudged, Health.inPair]

/-- Following its counts, a slot stays in the pair or out of it. -/
@[simp] theorem follow_inPair (d : SlotState) : d.follow.health.inPair = d.health.inPair := by
  cases hpair : d.health.inPair with
  | false => rw [follow_of_not_inPair hpair, hpair]
  | true =>
    rw [follow_of_inPair hpair]
    cases d.quiet <;> rfl

/-! ## One slot: the steps of a judgement (R23 to R36) -/

/-- The envelope check faults the slot at its envelope limit, or moves the envelope count and the good run, each within its
limit. -/
theorem envelopeStep_cases (r : SlotRecord) (metric : Nat) (d : SlotState) :
    envelopeStep r metric d = d.enterFaulted .envelope ∨
    ∃ e g, envelopeStep r metric d = { d with envelope := e, goodRun := g } ∧
      (d.envelope < r.envelopeLimit → e < r.envelopeLimit) ∧ (g = 0 ∨ g = d.goodRun ∨ g < r.decayRun) := by
  unfold envelopeStep
  split_ifs with hjudged hexcursion hlimit hdecays
  · exact .inl rfl
  · exact .inr ⟨d.envelope + 1, 0, rfl, by omega, .inl rfl⟩
  · exact .inr ⟨d.envelope - 1, 0, rfl, by omega, .inl rfl⟩
  · exact .inr ⟨d.envelope, d.goodRun + 1, rfl, id, .inr (.inr (by omega))⟩
  · exact .inr ⟨d.envelope, d.goodRun, rfl, id, .inr (.inl rfl)⟩

/-- Without a last position no rate check is made (R33). -/
theorem rateStep_of_no_position (r : SlotRecord) (position cycle : Word) {d : SlotState} (h : d.lastPosition = none) :
    rateStep r position cycle d = d := by
  simp [rateStep, h]

/-- The rate check of a slot of the pair that has a last position (R33, R34). -/
theorem rateStep_of_position (r : SlotRecord) (position cycle : Word) {d : SlotState} {last lastCycle : Word}
    (hpair : d.health.inPair = true) (h : d.lastPosition = some (last, lastCycle)) :
    rateStep r position cycle d =
      if lastCycle + 1 = cycle then
        if r.rateLimit < wrapMagnitude position last then
          if d.rate + 1 = r.ratePersistence then d.enterFaulted .rate else { d with rate := d.rate + 1 }
        else { d with rate := 0 }
      else d := by
  simp only [rateStep, hpair, h, if_true]

/-- The rate check faults the slot at its rate persistence, or moves the rate count of a slot of the pair. -/
theorem rateStep_cases (r : SlotRecord) (position cycle : Word) (d : SlotState) :
    rateStep r position cycle d = d.enterFaulted .rate ∨
    ∃ n, rateStep r position cycle d = { d with rate := n } ∧ (d.health = .settling → n = d.rate) ∧
      (0 < r.ratePersistence → d.rate < r.ratePersistence → n < r.ratePersistence) := by
  cases hpair : d.health.inPair with
  | false => exact .inr ⟨d.rate, if_neg (by simp [hpair]), fun _ => rfl, fun _ h => h⟩
  | true =>
    have hsettling := Health.not_settling_of_inPair hpair
    obtain hlast | ⟨⟨last, lastCycle⟩, hlast⟩ := Option.eq_none_or_eq_some d.lastPosition
    · exact .inr ⟨d.rate, rateStep_of_no_position r position cycle hlast, fun _ => rfl, fun _ h => h⟩
    · rw [rateStep_of_position r position cycle hpair hlast]
      split_ifs
      · exact .inl rfl
      · exact .inr ⟨d.rate + 1, rfl, fun h => absurd h hsettling, by omega⟩
      · exact .inr ⟨0, rfl, fun h => absurd h hsettling, fun h _ => h⟩
      · exact .inr ⟨d.rate, rfl, fun _ => rfl, fun _ h => h⟩

/-- The hold step moves the hold and the health state of a slot in SETTLING, which it leaves at a hold of 0. -/
theorem holdStep_cases (r : SlotRecord) (excursion entered : Bool) (d : SlotState) :
    holdStep r excursion entered d = d ∨ d.health = .settling ∧
      ((∃ n, holdStep r excursion entered d = { d with hold := n } ∧ (d.hold ≤ r.settlingHold → n ≤ r.settlingHold)) ∨
       holdStep r excursion entered d = { d with hold := 0, health := if d.quiet then .tracking else .suspect }) := by
  unfold holdStep
  by_cases hsettling : d.health = .settling ∧ entered = false
  · rw [if_pos hsettling]
    refine .inr ⟨hsettling.1, ?_⟩
    dsimp only
    by_cases hzero : (if excursion then r.settlingHold else d.hold - 1) = 0
    · rw [if_pos hzero]
      exact .inr rfl
    · rw [if_neg hzero]
      exact .inl ⟨_, rfl, by split_ifs <;> omega⟩
  · exact .inl (if_neg hsettling)

/-- The entry step makes a coherent slot that is neither UNUSED nor latched one under judgement. -/
theorem entryStep_underJudgement (r : SlotRecord) {d : SlotState} (h : d.coherent) (hused : d.health ≠ .unused)
    (hfree : d.health.isLatchedFault = false) : (entryStep r d).underJudgement := by
  cases hentry : d.health.makesEntry with
  | true =>
    have hnot : d.health.isJudged = false := by
      rcases hd : d.health with _ | _ | _ | _ | _ | cause
      case faulted => rfl
      all_goals simp_all [Health.makesEntry, Health.isJudged, Health.inPair]
    have hquiet : d.quiet = true := (h.2.2.2.2.1 hnot).1
    simp only [SlotState.quiet, decide_eq_true_eq] at hquiet
    by_cases hhold : r.settlingHold = 0
    · simp [entryStep, hentry, SlotState.underJudgement, Health.isJudged, Health.inPair, hhold]
    · simp [entryStep, hentry, SlotState.underJudgement, Health.isJudged, Health.inPair, hhold, hquiet]
  | false =>
    rw [entryStep, if_neg (by simp [hentry])]
    refine h.underJudgement ?_
    rcases hd : d.health with _ | _ | _ | _ | _ | cause
    case faulted => cases cause <;> simp_all [Health.makesEntry, Health.isLatchedFault]
    all_goals simp_all [Health.makesEntry, Health.isJudged, Health.inPair]

/-- A judgement that ends without a fault records the position. -/
theorem recordPosition_of_not_faulted (position cycle : Word) {d : SlotState} (h : d.health.isFaulted = false) :
    recordPosition position cycle d = { d with lastPosition := some (position, cycle) } := if_neg (by simp [h])

/-- A fault has no position to lose. -/
theorem recordPosition_enterFaulted (position cycle : Word) (d : SlotState) (cause : FaultCause) :
    recordPosition position cycle (d.enterFaulted cause) = d.enterFaulted cause := if_pos rfl

theorem enterFaulted_isFaulted (d : SlotState) (cause : FaultCause) :
    (d.enterFaulted cause).health.isFaulted = true := rfl

theorem SlotState.underJudgement.not_faulted {d : SlotState} (h : d.underJudgement) : d.health.isFaulted = false := by
  obtain h | h | h := (Health.isJudged_iff _).mp h.1 <;> rw [h] <;> rfl

/-- The hold step and the follow step leave a slot under judgement coherent, once its position is recorded. -/
theorem holdStep_follow_coherent (r : SlotRecord) (excursion entered : Bool) (position cycle : Word) {d : SlotState}
    (h : d.underJudgement) : (recordPosition position cycle (holdStep r excursion entered d).follow).coherent := by
  have hpaired : ∀ u : SlotState, u.health.inPair = true → u.hold = 0 →
      (recordPosition position cycle u.follow).coherent := by
    intro u hpair hhold
    have hstays : u.follow.health.inPair = true := by rw [follow_inPair, hpair]
    rw [recordPosition_of_not_faulted]
    · have hcoherent := follow_coherent (d := { u with lastPosition := some (position, cycle) }) hpair hhold rfl
      rw [follow_of_inPair hpair]
      rwa [follow_of_inPair (by exact hpair)] at hcoherent
    · obtain h | h := (Health.inPair_iff _).mp hstays <;> rw [h] <;> rfl
  have hsettled : ∀ u : SlotState, u.underJudgement → u.health = .settling →
      (recordPosition position cycle u.follow).coherent := by
    intro u hu hhealth
    rw [follow_of_not_inPair (by rw [hhealth]; rfl), recordPosition_of_not_faulted _ _ hu.not_faulted]
    exact SlotState.underJudgement.coherent hu rfl (fun hd => by simp [hhealth] at hd) (fun hd => by simp [hhealth] at hd)
  obtain hkept | ⟨hhealth, ⟨n, hmoved, -⟩ | hleft⟩ := holdStep_cases r excursion entered d
  · rw [hkept]
    obtain hhealth | hpair := (Health.isJudged_iff _).mp h.1
    · exact hsettled d h hhealth
    · have hpair := (Health.inPair_iff _).mpr hpair
      exact hpaired d hpair (h.2.1 (Health.not_settling_of_inPair hpair))
  · rw [hmoved]
    exact hsettled _ ⟨h.1, fun hnot => absurd hhealth hnot, h.2.2⟩ hhealth
  · rw [hleft]
    refine hpaired _ ?_ rfl
    cases d.quiet <;> rfl

/-- The judgement of a valid SAMPLE: it faults the slot in its envelope check or its rate check, or leaves what the hold step and
the follow step make of a slot under judgement. -/
theorem judge_cases (r : SlotRecord) (position cycle : Word) (metric : Nat) {d : SlotState}
    (h : (entryStep r d).underJudgement) :
    (∃ u cause, judge r position cycle metric d = SlotState.enterFaulted u cause) ∨
    ∃ u : SlotState, u.underJudgement ∧
      judge r position cycle metric d =
        recordPosition position cycle (holdStep r (isExcursion r metric) d.health.makesEntry u).follow ∧
      ∃ d2, envelopeStep r metric { entryStep r d with missing := 0 } = d2 ∧ d2.health.isFaulted = false ∧
        rateStep r position cycle d2 = u := by
  have hentered : SlotState.underJudgement { entryStep r d with missing := 0 } := h
  unfold judge
  dsimp only
  generalize { entryStep r d with missing := 0 } = d1 at hentered
  obtain henvelope | ⟨e, g, henvelope, -, -⟩ := envelopeStep_cases r metric d1
  · rw [henvelope, if_pos (enterFaulted_isFaulted _ _), recordPosition_enterFaulted]
    exact .inl ⟨_, _, rfl⟩
  have hd2 : SlotState.underJudgement { d1 with envelope := e, goodRun := g } := hentered
  rw [henvelope, hd2.not_faulted]
  generalize { d1 with envelope := e, goodRun := g } = d2 at hd2 henvelope
  simp only [Bool.false_eq_true, if_false]
  obtain hrate | ⟨n, hrate, hsettling, -⟩ := rateStep_cases r position cycle d2
  · rw [hrate, if_pos (enterFaulted_isFaulted _ _), recordPosition_enterFaulted]
    exact .inl ⟨_, _, rfl⟩
  have hd3 : SlotState.underJudgement { d2 with rate := n } :=
    ⟨hd2.1, hd2.2.1, fun hs => ⟨by rw [hsettling hs]; exact (hd2.2.2 hs).1, (hd2.2.2 hs).2⟩⟩
  rw [hrate, hd3.not_faulted]
  exact .inr ⟨_, hd3, rfl, d2, rfl, hd2.not_faulted, hrate⟩

theorem judge_coherent (r : SlotRecord) (position cycle : Word) (metric : Nat) {d : SlotState} (h : d.coherent)
    (hused : d.health ≠ .unused) (hfree : d.health.isLatchedFault = false) :
    (judge r position cycle metric d).coherent := by
  obtain ⟨u, cause, hfaulted⟩ | ⟨u, hu, hjudged, -⟩ :=
    judge_cases r position cycle metric (entryStep_underJudgement r h hused hfree)
  · rw [hfaulted]
    exact enterFaulted_coherent u cause
  · rw [hjudged]
    exact holdStep_follow_coherent _ _ _ _ _ hu

end Sys2Proof.Machine
end

section
/-! PROOF. The health law is kept by every step: the cycle end, the stall, the swap and the mode change, slot by slot (R21 to
R48, R146, R147). -/

namespace Sys2Proof.Machine

/-! ## One slot at a cycle end (R28, R38, R39) -/

/-- A slot that has missed a cycle more, short of its limit: SETTLING restarts its hold, TRACKING goes to SUSPECT (R28). -/
def missedSlot (r : SlotRecord) (d : SlotState) : SlotState :=
  { d with
    missing := d.missing + 1
    hold := if d.health = .settling then r.settlingHold else d.hold
    health := if d.health = .settling then .settling else .suspect }

/-- The missing phase of one slot in one equation: without a valid sample, a slot in SETTLING, TRACKING or SUSPECT misses one
more (R28). -/
theorem missingStep_eq (r : SlotRecord) (d : SlotState) : missingStep r d =
    if d.indication = false ∧ (d.health = .settling ∨ d.health = .tracking ∨ d.health = .suspect) then
      if d.missing + 1 = r.missingLimit then d.enterFaulted .lost else missedSlot r d
    else d := by
  rcases d with ⟨health, missing, envelope, rate, mismatch, goodRun, hold, lastPosition, indication, validTotal⟩
  cases indication <;> cases health <;> simp [missingStep, missedSlot]

/-- What the missing phase can make of a slot. -/
theorem missingStep_cases (r : SlotRecord) (d : SlotState) : missingStep r d = d ∨
    d.health.isJudged = true ∧ (missingStep r d = d.enterFaulted .lost ∨
      d.missing + 1 ≠ r.missingLimit ∧ missingStep r d = missedSlot r d) := by
  rw [missingStep_eq, Health.isJudged_iff]
  split_ifs with hjudged hlimit
  · exact .inr ⟨hjudged.2, .inl rfl⟩
  · exact .inr ⟨hjudged.2, .inr ⟨hlimit, rfl⟩⟩
  · exact .inl rfl

theorem missingStep_coherent (r : SlotRecord) {d : SlotState} (h : d.coherent) : (missingStep r d).coherent := by
  obtain hkept | ⟨hjudged, hlost | ⟨-, hmissed⟩⟩ := missingStep_cases r d
  · rwa [hkept]
  · rw [hlost]
    exact enterFaulted_coherent d .lost
  · rw [hmissed]
    obtain ⟨-, -, hhold, hsettling, -, hposition⟩ := h
    by_cases hs : d.health = .settling
    · simp_all [missedSlot, SlotState.coherent, SlotState.quiet, Health.isJudged, Health.inPair]
    · simp_all [missedSlot, SlotState.coherent, SlotState.quiet, Health.isJudged, Health.inPair]

/-- The missing phase neither makes a slot UNUSED nor takes one out of UNUSED. -/
theorem missingStep_unused (r : SlotRecord) (d : SlotState) :
    (missingStep r d).health = .unused ↔ d.health = .unused := by
  obtain hkept | ⟨hjudged, hlost | ⟨-, hmissed⟩⟩ := missingStep_cases r d
  · rw [hkept]
  · rw [hlost]
    obtain h | h | h := (Health.isJudged_iff _).mp hjudged <;> simp [SlotState.enterFaulted, h]
  · rw [hmissed]
    obtain h | h | h := (Health.isJudged_iff _).mp hjudged <;> simp [missedSlot, h]

/-- What the partner phase can make of a slot: only one of the pair, with a partner, is checked. -/
theorem partnerStep_cases (b : Bank) (slots : Fin 32 → SlotState) (i : Fin 32) :
    partnerStep b slots i = slots i ∨
    (slots i).health.inPair = true ∧ ∃ j, partnerOfSlot b i = some j ∧
      (partnerStep b slots i = (slots i).enterFaulted .mismatch ∨
       partnerStep b slots i = { slots i with mismatch := 0 }.follow ∨
       (slots i).mismatch + 1 ≠ b.slots[min i j].mismatchPersistence ∧
         partnerStep b slots i = { slots i with mismatch := (slots i).mismatch + 1 }.follow) := by
  unfold partnerStep
  cases hpartner : partnerOfSlot b i with
  | none => exact .inl rfl
  | some j =>
    dsimp only
    by_cases hchecked : ((slots i).checkable && (slots j).checkable) = true
    · rw [if_pos hchecked]
      have hpair : (slots i).health.inPair = true := by
        simp only [SlotState.checkable, Bool.and_eq_true] at hchecked
        exact hchecked.1.1
      split
      · split_ifs with haway hfaults
        · exact .inr ⟨hpair, j, rfl, .inl rfl⟩
        · exact .inr ⟨hpair, j, rfl, .inr (.inr ⟨fun h => hfaults (.inl h), rfl⟩)⟩
        · exact .inr ⟨hpair, j, rfl, .inr (.inl rfl)⟩
      · exact .inl rfl
    · rw [if_neg hchecked]
      exact .inl rfl

theorem partnerStep_coherent (b : Bank) {slots : Fin 32 → SlotState} (i : Fin 32) (h : (slots i).coherent) :
    (partnerStep b slots i).coherent := by
  have hfollow : ∀ n, (slots i).health.inPair = true → ({ slots i with mismatch := n } : SlotState).follow.coherent := by
    intro n hpair
    have hjudged : (slots i).health.isJudged = true := by simp [Health.isJudged, hpair]
    exact follow_coherent hpair (h.2.2.1 (Health.not_settling_of_inPair hpair)) (h.2.2.2.2.2 hjudged)
  obtain hkept | ⟨hpair, j, -, hfaulted | hsame | ⟨-, hraised⟩⟩ := partnerStep_cases b slots i
  · rwa [hkept]
  · rw [hfaulted]
    exact enterFaulted_coherent _ _
  · rw [hsame]
    exact hfollow 0 hpair
  · rw [hraised]
    exact hfollow _ hpair

theorem Health.ne_unused_of_inPair {h : Health} (hpair : h.inPair = true) : h ≠ .unused := by
  rintro rfl
  simp [Health.inPair] at hpair

theorem partnerStep_unused (b : Bank) (slots : Fin 32 → SlotState) (i : Fin 32) :
    (partnerStep b slots i).health = .unused ↔ (slots i).health = .unused := by
  have hfollow : ∀ n, (slots i).health.inPair = true →
      ({ slots i with mismatch := n } : SlotState).follow.health ≠ .unused := fun n hpair =>
    Health.ne_unused_of_inPair (by rw [follow_inPair]; exact hpair)
  obtain hkept | ⟨hpair, j, -, hfaulted | hsame | ⟨-, hraised⟩⟩ := partnerStep_cases b slots i
  · rw [hkept]
  · rw [hfaulted]
    exact iff_of_false nofun (Health.ne_unused_of_inPair hpair)
  · rw [hsame]
    exact iff_of_false (hfollow 0 hpair) (Health.ne_unused_of_inPair hpair)
  · rw [hraised]
    exact iff_of_false (hfollow _ hpair) (Health.ne_unused_of_inPair hpair)

/-! ## One slot at a stall, a SAMPLE and a swap (R26, R41, R146, R147) -/

/-- A stall faults the slots that are judged, and no other (R41). -/
theorem stallStep_eq (d : SlotState) :
    stallStep d = if d.health.isJudged then d.enterFaulted .stall else d := by
  unfold stallStep
  rcases hd : d.health with _ | _ | _ | _ | _ | _ <;> rfl

theorem stallStep_coherent {d : SlotState} (h : d.coherent) : (stallStep d).coherent := by
  rw [stallStep_eq]
  split_ifs
  · exact enterFaulted_coherent d .stall
  · exact h

theorem stallStep_unused (d : SlotState) : (stallStep d).health = .unused ↔ d.health = .unused := by
  rw [stallStep_eq]
  split_ifs with hjudged
  · obtain h | h | h := (Health.isJudged_iff _).mp hjudged <;> simp [SlotState.enterFaulted, h]
  · rfl

/-- A SAMPLE leaves a used slot coherent. -/
theorem sampledSlot_coherent {s : State} {i : Fin 32} (m : Sample) (h : (s.slot i).coherent)
    (hused : (s.slot i).health ≠ .unused) : (sampledSlot s i m).coherent := by
  unfold sampledSlot
  dsimp only
  split_ifs with hlatched
  · exact h
  · exact judge_coherent _ _ _ _ h hused (by simpa using hlatched)

/-- A judgement never makes a slot UNUSED. -/
theorem judge_ne_unused (r : SlotRecord) (position cycle : Word) (metric : Nat) {d : SlotState} (h : d.coherent)
    (hused : d.health ≠ .unused) (hfree : d.health.isLatchedFault = false) :
    (judge r position cycle metric d).health ≠ .unused := by
  obtain ⟨u, cause, hfaulted⟩ | ⟨u, hu, hjudged, -⟩ :=
    judge_cases r position cycle metric (entryStep_underJudgement r h hused hfree)
  · rw [hfaulted]
    nofun
  · have hfollow : ∀ v : SlotState, v.health ≠ .unused → v.follow.health ≠ .unused := by
      intro v hv
      unfold SlotState.follow
      cases v.quiet <;> split_ifs <;> simp_all
    have hrecord : ∀ v : SlotState, (recordPosition position cycle v).health = v.health := by
      intro v
      unfold recordPosition
      split_ifs <;> rfl
    have hunder : u.health ≠ .unused := by
      rintro hunused
      simpa [hunused] using (Health.isJudged_iff _).mp hu.1
    rw [hjudged, hrecord]
    apply hfollow
    obtain hkept | ⟨hhealth, ⟨n, hmoved, -⟩ | hleft⟩ := holdStep_cases r (isExcursion r metric) d.health.makesEntry u
    · rwa [hkept]
    · rwa [hmoved]
    · rw [hleft]
      cases u.quiet <;> simp

theorem sampledSlot_ne_unused {s : State} {i : Fin 32} (m : Sample) (h : (s.slot i).coherent)
    (hused : (s.slot i).health ≠ .unused) : (sampledSlot s i m).health ≠ .unused := by
  unfold sampledSlot
  dsimp only
  split_ifs with hlatched
  · exact hused
  · exact judge_ne_unused _ _ _ _ h hused (by simpa using hlatched)

/-- A faulted slot holds nothing but its cause, so that its release leaves it coherent (R43). -/
theorem acquiring_coherent {d : SlotState} {cause : FaultCause} (h : d.coherent) (hfaulted : d.health = .faulted cause) :
    ({ d with health := .acquiring } : SlotState).coherent := by
  obtain ⟨-, -, hhold, -, hnot, -⟩ := h
  have hnot := hnot (by simp [hfaulted, Health.isJudged, Health.inPair])
  exact ⟨nofun, nofun, fun _ => hhold (by simp [hfaulted]), nofun, fun _ => hnot,
    fun hjudged => by simp [Health.isJudged, Health.inPair] at hjudged⟩

@[simp] theorem clampCount_zero (limit : Nat) : clampCount limit 0 = 0 := by
  unfold clampCount
  split_ifs <;> omega

/-- A clamped count is below its limit, where the limit is not 0 (R147). -/
theorem clampCount_lt {limit : Nat} (h : 0 < limit) (count : Nat) : clampCount limit count < limit := by
  unfold clampCount
  split_ifs <;> omega

/-- The counts of a slot kept across a swap (R147). -/
def clampedSlot (old new : SlotRecord) (d : SlotState) : SlotState :=
  { d with
    missing := clampCount new.missingLimit d.missing
    envelope := clampCount new.envelopeLimit d.envelope
    rate := clampCount new.ratePersistence d.rate
    mismatch := if new.partner = none ∨ new.partner ≠ old.partner then 0
      else clampCount new.mismatchPersistence d.mismatch
    hold := min d.hold new.settlingHold }

theorem keepSlot_eq (old new : SlotRecord) (d : SlotState) : keepSlot old new d =
    if d.health = .suspect ∧ (clampedSlot old new d).quiet = true then { clampedSlot old new d with health := .tracking }
    else clampedSlot old new d := rfl

/-- Clamping keeps counts of zero. -/
theorem clampedSlot_quiet (old new : SlotRecord) {d : SlotState} (h : d.quiet = true) :
    (clampedSlot old new d).quiet = true := by
  simp only [SlotState.quiet, decide_eq_true_eq] at h
  simp [clampedSlot, SlotState.quiet, h]

theorem keepSlot_coherent (old new : SlotRecord) {d : SlotState} (h : d.coherent) : (keepSlot old new d).coherent := by
  obtain ⟨htracking, hsuspect, hhold, hsettling, hnot, hposition⟩ := h
  have hheld : d.health ≠ .settling → (clampedSlot old new d).hold = 0 := fun hs => by simp [clampedSlot, hhold hs]
  rw [keepSlot_eq]
  split_ifs with hback
  · have hs : d.health ≠ .settling := by simp [hback.1]
    have hjudged : d.health.isJudged = true := by simp [hback.1, Health.isJudged, Health.inPair]
    exact ⟨fun _ => hback.2, nofun, fun _ => hheld hs, nofun, fun hnot => absurd hnot (by simp [Health.isJudged, Health.inPair]),
      fun _ => hposition hjudged⟩
  · refine ⟨fun ht => clampedSlot_quiet old new (htracking ht), fun hs => ?_, hheld, fun hs => ?_, fun hn => ?_, hposition⟩
    · simpa using fun hquiet => hback ⟨hs, hquiet⟩
    · obtain ⟨hrate, hmismatch⟩ := hsettling hs
      simp [clampedSlot, hrate, hmismatch]
    · obtain ⟨hquiet, hgood, hlast⟩ := hnot hn
      exact ⟨clampedSlot_quiet old new hquiet, hgood, hlast⟩

/-- A kept slot stays in the pair or out of it, and UNUSED or not. -/
theorem keepSlot_health (old new : SlotRecord) (d : SlotState) :
    (keepSlot old new d).health = d.health ∨ d.health = .suspect ∧ (keepSlot old new d).health = .tracking := by
  rw [keepSlot_eq]
  split_ifs with hback
  · exact .inr ⟨hback.1, rfl⟩
  · exact .inl rfl

theorem carrySlot_coherent (old new : SlotRecord) {d : SlotState} (h : d.coherent) : (carrySlot old new d).coherent := by
  unfold carrySlot
  split_ifs
  · exact keepSlot_coherent old new h
  · exact h
  · exact restartIn_coherent d (.inr rfl)
  · exact restartIn_coherent d (.inl rfl)

theorem sameSlotIdentity_configured {old new : SlotRecord} (h : sameSlotIdentity old new = true) :
    new.configured = old.configured := by
  simp only [sameSlotIdentity, Bool.and_eq_true, decide_eq_true_eq] at h
  exact h.1.symm

/-- A swap leaves UNUSED exactly the slots that its new bank does not configure. -/
theorem carrySlot_unused {old new : SlotRecord} {d : SlotState} (h : old.configured = true ↔ d.health ≠ .unused) :
    new.configured = true ↔ (carrySlot old new d).health ≠ .unused := by
  unfold carrySlot
  split_ifs with hsame hconfigured hconfigured
  · obtain hkept | ⟨-, hback⟩ := keepSlot_health old new d
    · rw [hkept, ← h, sameSlotIdentity_configured hsame]
    · simp [hback, hconfigured]
  · rw [← h, sameSlotIdentity_configured hsame]
  · simp [SlotState.restartIn, hconfigured]
  · simp [SlotState.restartIn, hconfigured]

/-! ## The law -/

/-- What leaves every slot coherent, UNUSED or not as it was, and configured or not as it was, keeps the law. -/
theorem State.healthCoherent.of_slots {s t : State} (hs : s.healthCoherent) (hcoherent : ∀ i, (t.slot i).coherent)
    (hunused : ∀ i, (t.slot i).health = .unused ↔ (s.slot i).health = .unused)
    (hmode : t.config.mode = s.config.mode) (hrecords : ∀ i, t.slotRecord i = s.slotRecord i) : t.healthCoherent := by
  obtain ⟨-, hstandby, hmonitor⟩ := hs
  refine ⟨hcoherent, fun h i => (hunused i).mpr (hstandby (hmode ▸ h) i), fun h i => ?_⟩
  rw [hrecords, hmonitor (hmode ▸ h) i, Ne, Ne, hunused]

/-- In STANDBY the law asks for slots UNUSED and coherent. -/
theorem healthCoherent_of_standby {t : State} (hmode : t.config.mode = .standby)
    (hslots : ∀ i, (t.slot i).coherent ∧ (t.slot i).health = .unused) : t.healthCoherent :=
  ⟨fun i => (hslots i).1, fun _ i => (hslots i).2, fun h => by simp [hmode] at h⟩

/-- A SAMPLE maps to configured slots alone (R2). -/
theorem matchSlot_configured {b : Bank} {strap : Strap} {address : Byte} {subchannel : Fin 4} {i : Fin 32}
    (h : matchSlot b strap address subchannel = some i) : b.slots[i].configured = true := by
  unfold matchSlot at h
  split_ifs at h
  have hfound := List.find?_some h
  simp only [Bool.and_eq_true] at hfound
  exact hfound.1.1

theorem healthCoherent_keptByEngines : KeptByEngines State.healthCoherent where
  same s t h hs := by
    have hrecords := h.banks.2.2.1
    refine hs.of_slots (fun i => ?_) (fun i => by rw [h.health i]) (by rw [h.2.2.1]) hrecords
    obtain ⟨total, indication, hi⟩ := h.1 i
    rw [hi]
    exact hs.1 i
  reset t hslots _ hconfig :=
    healthCoherent_of_standby (by rw [hconfig]; rfl) fun i => by rw [hslots]; exact ⟨cleared_coherent, rfl⟩
  restart s t _ hslots _ hconfig _ :=
    healthCoherent_of_standby (by rw [hconfig]) fun i => by rw [hslots]; exact ⟨cleared_coherent, rfl⟩
  cycleEnd s hs := by
    refine hs.of_slots (fun i => ?_) (fun i => ?_) (by simp) (by simp)
    · rw [evaluateCycleEnd_slot]
      exact partnerStep_coherent _ i (missingStep_coherent _ (hs.1 i))
    · rw [evaluateCycleEnd_slot, partnerStep_unused, missingStep_unused]
  stalled s hs := by
    refine hs.of_slots (fun i => ?_) (fun i => ?_) (by simp) (by simp)
    · rw [stallSlots_slot]
      exact stallStep_coherent (hs.1 i)
    · rw [stallSlots_slot, stallStep_unused]
  swap s tag hs hpending := by
    obtain ⟨hcoherent, hstandby, hmonitor⟩ := hs
    obtain ⟨hnew, -⟩ := swapBanks_activeBank hpending
    have hconfig := swapBanks_config hpending
    cases hmode : s.config.mode with
    | standby =>
      have hslot : ∀ i, (swapBanks s).slot i = carryStandby s.activeBank.slots[i] s.shadowBank.slots[i] (s.slot i) := by
        intro i
        rw [swapBanks_slot hpending, hmode]
      refine healthCoherent_of_standby (by rw [hconfig, hmode]) fun i => ?_
      rw [hslot]
      unfold carryStandby
      split_ifs
      · exact ⟨hcoherent i, hstandby hmode i⟩
      · exact ⟨hcoherent i, hstandby hmode i⟩
    | monitor =>
      have hslot : ∀ i, (swapBanks s).slot i = carrySlot s.activeBank.slots[i] s.shadowBank.slots[i] (s.slot i) := by
        intro i
        rw [swapBanks_slot hpending, hmode]
      refine ⟨fun i => ?_, fun h => by simp [hconfig, hmode] at h, fun _ i => ?_⟩
      · rw [hslot]
        exact carrySlot_coherent _ _ (hcoherent i)
      · rw [hslot, State.slotRecord, hnew]
        exact carrySlot_unused (hmonitor hmode i)
  mode s change hs _ := by
    have hrecords : ∀ i, (applyMode s).slotRecord i = s.slotRecord i := by simp [State.slotRecord]
    obtain ⟨hmode, hslots, -⟩ | ⟨hmode, hslots, -⟩ | ⟨hmode, hslots, -⟩ := applyMode_cases s
    · exact hs.of_slots (fun i => by rw [hslots]; exact hs.1 i) (fun i => by rw [hslots]) hmode hrecords
    · refine ⟨fun i => ?_, fun h => by simp [hmode] at h, fun _ i => ?_⟩
      · rw [hslots]
        refine restartIn_coherent (s.slot i) ?_
        cases (s.slotRecord i).configured
        · exact .inl rfl
        · exact .inr rfl
      · rw [hslots, hrecords]
        cases hconfigured : (s.slotRecord i).configured <;> simp [SlotState.restartIn]
    · refine healthCoherent_of_standby hmode fun i => ?_
      rw [hslots]
      exact ⟨restartIn_coherent (s.slot i) (.inl rfl), rfl⟩
  valid s m i hs hmode hvalid := by
    have hused : (s.slot i).health ≠ .unused := (hs.2.2 hmode i).mp (matchSlot_configured hvalid.1)
    refine hs.of_slots (fun j => ?_) (fun j => ?_) (by simp) (by simp)
    · rw [takeValid_slot]
      split_ifs
      · exact sampledSlot_coherent m (hs.1 i) hused
      · exact hs.1 j
    · rw [takeValid_slot]
      split_ifs with hj
      · rw [hj]
        exact iff_of_false (sampledSlot_ne_unused m (hs.1 i) hused) hused
      · rfl
  write s b hs _ := hs.of_slots (by simpa using hs.1) (by simp) (by simp) (by simp)
  commit s tag hs _ := hs.of_slots hs.1 (fun _ => Iff.rfl) rfl (fun _ => rfl)
  cancel s hs := hs.of_slots hs.1 (fun _ => Iff.rfl) rfl (fun _ => rfl)
  setMode s change hs _ := hs.of_slots hs.1 (fun _ => Iff.rfl) rfl (fun _ => rfl)
  defer s i hs _ _ _ _ := hs.of_slots hs.1 (fun _ => Iff.rfl) rfl (fun _ => rfl)
  clear s i hs _ _ _ _ _ := hs.of_slots hs.1 (fun _ => Iff.rfl) rfl (fun _ => rfl)
  release s i cause hs _ hfaulted := by
    refine hs.of_slots (fun j => ?_) (fun j => ?_) (by simp) (by simp)
    · rw [State.withSlot_slot]
      split_ifs
      · exact acquiring_coherent (hs.1 i) hfaulted
      · exact hs.1 j
    · rw [State.withSlot_slot]
      split_ifs with hj
      · simp [hj, hfaulted]
      · rfl

/-- Settles O54: each operation on a slot leaves it coherent, and UNUSED exactly when it is not configured. -/
theorem healthLawKept : Obligations.HealthLawKept := healthCoherent_keptByEngines.keptByStep

end Sys2Proof.Machine
end

section
/-! PROOF. What validation says of a record, check by check, and the law of the counts (R22, R32, R36, R40, R141, R147). -/

namespace Sys2Proof.Machine

/-! ## Validation, check by check (R141) -/

/-- No check of a list fails for the code given. -/
def codePasses (checks : List (Nat × Bool)) (code : Nat) : Prop := ∀ c ∈ checks, c.1 = code → c.2 = true

theorem codePasses_nil (code : Nat) : codePasses [] code := by simp [codePasses]

theorem codePasses_cons (c : Nat × Bool) (checks : List (Nat × Bool)) (code : Nat) :
    codePasses (c :: checks) code ↔ (c.1 = code → c.2 = true) ∧ codePasses checks code := by simp [codePasses]

theorem firstFailure_eq_none_iff (checks : List (Nat × Bool)) :
    firstFailure checks = none ↔ ∀ code, codePasses checks code := by
  simp only [firstFailure, Option.map_eq_none_iff, List.find?_eq_none, codePasses]
  exact ⟨fun h code c hc _ => by simpa using h c hc, fun h c hc => by simpa using h c.1 c hc rfl⟩

/-- Of checks in the order of their codes, the first failure is the lowest code that does not pass. -/
theorem firstFailure_eq_some_iff {checks : List (Nat × Bool)} (hsorted : checks.Pairwise fun a b => a.1 < b.1)
    (code : Nat) : firstFailure checks = some code ↔
      (∀ c, c < code → codePasses checks c) ∧ ¬codePasses checks code := by
  induction checks with
  | nil => simp [firstFailure, codePasses_nil]
  | cons a l ih =>
    obtain ⟨hlater, hsorted⟩ := List.pairwise_cons.mp hsorted
    cases hpass : a.2 with
    | true =>
      have hskip : firstFailure (a :: l) = firstFailure l := by simp [firstFailure, hpass]
      simp only [hskip, ih hsorted, codePasses_cons, hpass, implies_true, true_and]
    | false =>
      have hfound : firstFailure (a :: l) = some a.1 := by simp [firstFailure, hpass]
      simp only [hfound, Option.some.injEq, codePasses_cons, hpass, Bool.false_eq_true, imp_false]
      constructor
      · rintro rfl
        refine ⟨fun c hc => ⟨hc.ne', fun x hx hxc => ?_⟩, fun h => h.1 rfl⟩
        exact absurd (hlater x hx) (by omega)
      · rintro ⟨hbelow, hfails⟩
        by_contra hne
        rcases Nat.lt_or_gt_of_ne hne with hlt | hgt
        · exact (hbelow a.1 hlt).1 rfl
        · exact hfails ⟨hne, fun x hx hxc => absurd (hlater x hx) (by omega)⟩

/-- The checks of a channel slot record. -/
def slotChecks (b : Bank) (strap : Strap) (i : Fin 32) : List (Nat × Bool) :=
  let r := b.slots[i]
  if r.configured then
    [(1, r.inRange),
     (2, decide (r.node ≠ strap.toNat)),
     (3, (List.finRange 32).all fun j =>
        !(decide (j < i) && b.slots[j].configured && decide (b.slots[j].node = r.node) &&
          decide (b.slots[j].subchannel = r.subchannel))),
     (4, decide (r.kind = .scalar →
        r.offsetA = 0 ∧ r.offsetB = 0 ∧ r.gainB = 1024 ∧ r.envelopeLow = 0 ∧ r.envelopeHigh = 0)),
     (5, decide (r.kind = .pair → r.envelopeLow < r.envelopeHigh)),
     (6, decide (r.partner ≠ some i)),
     (7, partnerPasses b r fun q => q.configured),
     (8, partnerPasses b r fun q => decide (q.partner = some i)),
     (9, partnerPasses b r fun q => decide (q.resolution = r.resolution)),
     (10, partnerPasses b r fun q =>
        decide (q.mismatchTolerance = r.mismatchTolerance ∧ q.mismatchPersistence = r.mismatchPersistence))]
  else [(1, r.inRange)]

theorem slotFailure_eq (b : Bank) (strap : Strap) (i : Fin 32) :
    slotFailure b strap i = firstFailure (slotChecks b strap i) := by
  unfold slotFailure slotChecks
  dsimp only
  split_ifs <;> rfl

theorem slotChecks_sorted (b : Bank) (strap : Strap) (i : Fin 32) :
    (slotChecks b strap i).Pairwise fun a b => a.1 < b.1 := by
  unfold slotChecks
  dsimp only
  split_ifs <;> simp

theorem partnerPasses_iff (b : Bank) (r : SlotRecord) (test : SlotRecord → Bool) :
    partnerPasses b r test = true ↔ ∀ j, r.partner = some j → test b.slots[j] = true := by
  unfold partnerPasses
  cases r.partner <;> simp

/-- The checks of a slot record pass, code by code, as `Bank.slotPasses` says. -/
theorem slotPasses_iff (b : Bank) (strap : Strap) (i : Fin 32) (code : Nat) :
    b.slotPasses strap i code ↔ codePasses (slotChecks b strap i) code := by
  unfold Bank.slotPasses slotChecks
  cases hconfigured : b.slots[i].configured with
  | false =>
    simp only [hconfigured, Bool.false_eq_true, if_false, codePasses_cons, codePasses_nil]
    by_cases hone : code = 1
    · simp [hone]
    · simp [hone, Ne.symm hone]
  | true =>
    simp only [hconfigured, if_true, codePasses_cons, codePasses_nil, partnerPasses_iff, true_implies]
    match code with
    | 0 | 1 | 2 | 6 | 7 | 8 | 9 | 10 => simp
    | 3 | 4 | 5 => simp [or_assoc, imp_iff_not_or]
    | n + 11 => simp

theorem slotFailure_eq_none_iff (b : Bank) (strap : Strap) (i : Fin 32) :
    slotFailure b strap i = none ↔ ∀ code, b.slotPasses strap i code := by
  simp only [slotFailure_eq, firstFailure_eq_none_iff, slotPasses_iff]

/-! ## The limits of a validated bank (R1, R141) -/

/-- Limits of which none is 0, and a decay run of one byte (R1). -/
def SlotRecord.hasLimits (r : SlotRecord) : Prop :=
  0 < r.missingLimit ∧ 0 < r.envelopeLimit ∧ 0 < r.ratePersistence ∧ 0 < r.mismatchPersistence ∧ r.decayRun ≤ 255

/-- The records of a validated bank have limits; partners have one mismatch persistence (R141, checks 1 and 10). -/
theorem hasLimits_of_valid {b : Bank} {strap : Strap} (h : validate b strap = none) (i : Fin 32) :
    b.slots[i].hasLimits ∧ (b.slots[i].configured = true → ∀ j, b.slots[i].partner = some j →
      b.slots[j].mismatchPersistence = b.slots[i].mismatchPersistence) := by
  have hpasses := (slotFailure_eq_none_iff b strap i).mp (((validate_eq_none_iff b strap).mp h).1 i)
  have hrange : b.slots[i].inRange = true := by simpa [Bank.slotPasses] using hpasses 1
  refine ⟨?_, fun hconfigured j hj => ?_⟩
  · simp only [SlotRecord.inRange, Bool.and_eq_true, decide_eq_true_eq] at hrange
    unfold SlotRecord.hasLimits
    omega
  · have hten : b.slots[i].configured = true → ∀ j, b.slots[i].partner = some j →
        b.slots[j].mismatchTolerance = b.slots[i].mismatchTolerance ∧
        b.slots[j].mismatchPersistence = b.slots[i].mismatchPersistence := by simpa [Bank.slotPasses] using hpasses 10
    exact (hten hconfigured j hj).2

/-! ## One slot: the counts -/

/-- Nothing counted lies below any limits. -/
theorem belowLimits_of_zero {r : SlotRecord} {d : SlotState} (hr : r.hasLimits)
    (hcounts : d.missing = 0 ∧ d.envelope = 0 ∧ d.rate = 0 ∧ d.mismatch = 0) (hgood : d.goodRun = 0) (hhold : d.hold = 0) :
    d.belowLimits r := by
  obtain ⟨hmissing, henvelope, hrate, hmismatch, -⟩ := hr
  simp [SlotState.belowLimits, hcounts, hgood, hhold, hmissing, henvelope, hrate, hmismatch]

theorem enterFaulted_belowLimits {r : SlotRecord} (hr : r.hasLimits) (d : SlotState) (cause : FaultCause) :
    (d.enterFaulted cause).belowLimits r := belowLimits_of_zero hr ⟨rfl, rfl, rfl, rfl⟩ rfl rfl

theorem restartIn_belowLimits {r : SlotRecord} (hr : r.hasLimits) (d : SlotState) (h : Health) :
    (d.restartIn h).belowLimits r := belowLimits_of_zero hr ⟨rfl, rfl, rfl, rfl⟩ rfl rfl

theorem missingStep_belowLimits {r : SlotRecord} {d : SlotState} (hr : r.hasLimits) (h : d.belowLimits r) :
    (missingStep r d).belowLimits r := by
  obtain hkept | ⟨-, hlost | ⟨hshort, hmissed⟩⟩ := missingStep_cases r d
  · rwa [hkept]
  · rw [hlost]
    exact enterFaulted_belowLimits hr d .lost
  · rw [hmissed]
    obtain ⟨hmissing, henvelope, hrate, hmismatch, hpartner, hgood, hhold⟩ := h
    refine ⟨?_, henvelope, hrate, hmismatch, hpartner, hgood, ?_⟩
    · simp only [missedSlot]
      omega
    · simp only [missedSlot]
      split_ifs <;> omega

theorem follow_belowLimits {r : SlotRecord} {d : SlotState} (h : d.belowLimits r) : d.follow.belowLimits r := by
  unfold SlotState.follow
  split_ifs <;> exact h

theorem partnerOfSlot_partner {b : Bank} {i j : Fin 32} (h : partnerOfSlot b i = some j) :
    b.slots[i].configured = true ∧ b.slots[i].partner = some j := by
  unfold partnerOfSlot at h
  split_ifs at h with hconfigured
  · split at h
    · rename_i k hk
      split_ifs at h
      obtain rfl := Option.some.inj h
      exact ⟨hconfigured, hk⟩
    · simp at h

theorem partnerStep_belowLimits {b : Bank} {strap : Strap} (hb : validate b strap = none) {slots : Fin 32 → SlotState}
    {i : Fin 32} (h : (slots i).belowLimits b.slots[i]) : (partnerStep b slots i).belowLimits b.slots[i] := by
  obtain ⟨hr, hequal⟩ := hasLimits_of_valid hb i
  obtain hkept | ⟨-, j, hpartner, hfaulted | hsame | ⟨hshort, hraised⟩⟩ := partnerStep_cases b slots i
  · rwa [hkept]
  · rw [hfaulted]
    exact enterFaulted_belowLimits hr _ _
  · rw [hsame]
    obtain ⟨hmissing, henvelope, hrate, -, -, hgood, hhold⟩ := h
    obtain ⟨-, -, -, hpersistence, -⟩ := hr
    exact follow_belowLimits ⟨hmissing, henvelope, hrate, hpersistence, fun _ => rfl, hgood, hhold⟩
  · rw [hraised]
    obtain ⟨hconfigured, hnamed⟩ := partnerOfSlot_partner hpartner
    have heither : ∀ k, k = i ∨ k = j → b.slots[k].mismatchPersistence = b.slots[i].mismatchPersistence := by
      rintro k (rfl | rfl)
      · rfl
      · exact hequal hconfigured k hnamed
    have hlower := heither (min i j) (min_choice i j)
    obtain ⟨hmissing, henvelope, hrate, hmismatch, -, hgood, hhold⟩ := h
    rw [hlower] at hshort
    have hbelow : (slots i).mismatch + 1 < b.slots[i].mismatchPersistence := by omega
    have hpartnered : b.slots[i].partner ≠ none := by rw [hnamed]; exact Option.some_ne_none j
    exact follow_belowLimits ⟨hmissing, henvelope, hrate, hbelow, fun hnone => absurd hnone hpartnered, hgood, hhold⟩

theorem stallStep_belowLimits {r : SlotRecord} {d : SlotState} (hr : r.hasLimits) (h : d.belowLimits r) :
    (stallStep d).belowLimits r := by
  rw [stallStep_eq]
  split_ifs
  · exact enterFaulted_belowLimits hr d .stall
  · exact h

theorem entryStep_belowLimits {r : SlotRecord} {d : SlotState} (h : d.belowLimits r) : (entryStep r d).belowLimits r := by
  obtain ⟨hmissing, henvelope, hrate, hmismatch, hpartner, hgood, -⟩ := id h
  unfold entryStep
  by_cases hentry : d.health.makesEntry = true
  · rw [if_pos hentry]
    exact ⟨hmissing, henvelope, hrate, hmismatch, hpartner, hgood, le_rfl⟩
  · rwa [if_neg hentry]

theorem envelopeStep_belowLimits {r : SlotRecord} {d : SlotState} (metric : Nat) (hr : r.hasLimits)
    (h : d.belowLimits r) : (envelopeStep r metric d).belowLimits r := by
  obtain hfaulted | ⟨e, g, hmoved, hbelow, hrun⟩ := envelopeStep_cases r metric d
  · rw [hfaulted]
    exact enterFaulted_belowLimits hr d .envelope
  · rw [hmoved]
    obtain ⟨hmissing, henvelope, hrate, hmismatch, hpartner, hgood, hhold⟩ := h
    obtain ⟨-, -, -, -, hdecay⟩ := hr
    have hrun : g ≤ 254 := by omega
    exact ⟨hmissing, hbelow henvelope, hrate, hmismatch, hpartner, hrun, hhold⟩

theorem rateStep_belowLimits {r : SlotRecord} {d : SlotState} (position cycle : Word) (hr : r.hasLimits)
    (h : d.belowLimits r) : (rateStep r position cycle d).belowLimits r := by
  obtain hfaulted | ⟨n, hmoved, -, hbelow⟩ := rateStep_cases r position cycle d
  · rw [hfaulted]
    exact enterFaulted_belowLimits hr d .rate
  · rw [hmoved]
    obtain ⟨hmissing, henvelope, hrate, hmismatch, hpartner, hgood, hhold⟩ := h
    obtain ⟨-, -, hpersistence, -⟩ := hr
    exact ⟨hmissing, henvelope, hbelow hpersistence hrate, hmismatch, hpartner, hgood, hhold⟩

theorem holdStep_belowLimits {r : SlotRecord} {d : SlotState} (excursion entered : Bool) (h : d.belowLimits r) :
    (holdStep r excursion entered d).belowLimits r := by
  obtain ⟨hmissing, henvelope, hrate, hmismatch, hpartner, hgood, hhold⟩ := id h
  obtain hkept | ⟨-, ⟨n, hmoved, hbelow⟩ | hleft⟩ := holdStep_cases r excursion entered d
  · rwa [hkept]
  · rw [hmoved]
    exact ⟨hmissing, henvelope, hrate, hmismatch, hpartner, hgood, hbelow hhold⟩
  · rw [hleft]
    exact ⟨hmissing, henvelope, hrate, hmismatch, hpartner, hgood, Nat.zero_le _⟩

theorem recordPosition_belowLimits {r : SlotRecord} {d : SlotState} (position cycle : Word) (h : d.belowLimits r) :
    (recordPosition position cycle d).belowLimits r := by
  unfold recordPosition
  split_ifs <;> exact h

/-- No step of a judgement brings a count to its limit without a fault (R23). -/
theorem judge_belowLimits {r : SlotRecord} {d : SlotState} (position cycle : Word) (metric : Nat) (hr : r.hasLimits)
    (h : d.belowLimits r) : (judge r position cycle metric d).belowLimits r := by
  have hentered : SlotState.belowLimits r { entryStep r d with missing := 0 } := ⟨hr.1, (entryStep_belowLimits h).2⟩
  have henvelope := envelopeStep_belowLimits metric hr hentered
  have hrate := rateStep_belowLimits position cycle hr henvelope
  unfold judge
  dsimp only
  apply recordPosition_belowLimits
  split_ifs
  · exact henvelope
  · exact hrate
  · exact follow_belowLimits (holdStep_belowLimits _ _ hrate)

theorem sampledSlot_belowLimits {s : State} {i : Fin 32} (m : Sample) (hr : (s.slotRecord i).hasLimits)
    (h : (s.slot i).belowLimits (s.slotRecord i)) : (sampledSlot s i m).belowLimits (s.slotRecord i) := by
  unfold sampledSlot
  dsimp only
  split_ifs
  · exact h
  · exact judge_belowLimits _ _ _ hr h

theorem keepSlot_belowLimits (old : SlotRecord) {new : SlotRecord} {d : SlotState} (hr : new.hasLimits)
    (hgood : d.goodRun ≤ 254) : (keepSlot old new d).belowLimits new := by
  obtain ⟨hmissing, henvelope, hrate, hmismatch, -⟩ := hr
  have hclamped : (clampedSlot old new d).belowLimits new := by
    refine ⟨clampCount_lt hmissing _, clampCount_lt henvelope _, clampCount_lt hrate _, ?_, fun hnone => ?_, hgood,
      min_le_right _ _⟩
    · simp only [clampedSlot]
      split_ifs
      · exact hmismatch
      · exact clampCount_lt hmismatch _
    · simp [clampedSlot, hnone]
  rw [keepSlot_eq]
  split_ifs <;> exact hclamped

/-- A swap leaves the counts of the slots it configures below the new limits (R147). -/
theorem carrySlot_belowLimits {old new : SlotRecord} {d : SlotState} (hr : new.hasLimits)
    (hold : old.configured = true → d.goodRun ≤ 254) (hconfigured : new.configured = true) :
    (carrySlot old new d).belowLimits new := by
  unfold carrySlot
  split_ifs with hsame
  · exact keepSlot_belowLimits old hr (hold (by rw [← sameSlotIdentity_configured hsame, hconfigured]))
  · exact restartIn_belowLimits hr d .acquiring

/-! ## The law -/

/-- The counts of every slot, with what else the law rests on: a validated bank, and coherent slots. -/
def State.countsLawful (s : State) : Prop := s.configurationLawful ∧ s.healthCoherent ∧ s.countsBelowLimits

theorem State.configurationLawful.hasLimits {s : State} (hs : s.configurationLawful) (i : Fin 32) :
    (s.slotRecord i).hasLimits := (hasLimits_of_valid hs.1 i).1

/-- What moves each slot within its limits, keeping the mode and the records, keeps the law. -/
theorem State.countsBelowLimits.of_slots {s t : State} (hs : s.countsBelowLimits)
    (hslots : ∀ i, (s.slot i).belowLimits (s.slotRecord i) → (t.slot i).belowLimits (s.slotRecord i))
    (hmode : t.config.mode = s.config.mode) (hrecords : ∀ i, t.slotRecord i = s.slotRecord i) : t.countsBelowLimits := by
  intro hmonitor i hconfigured
  rw [hrecords] at hconfigured ⊢
  exact hslots i (hs (hmode ▸ hmonitor) i hconfigured)

theorem countsBelowLimits_of_standby {t : State} (h : t.config.mode = .standby) : t.countsBelowLimits :=
  fun hmonitor => by simp [h] at hmonitor

theorem countsLawful_keptByEngines : KeptByEngines State.countsLawful where
  same s t h hs := by
    obtain ⟨hconfig, hhealth, hcounts⟩ := hs
    refine ⟨configurationLawful_keptByEngines.same s t h hconfig, healthCoherent_keptByEngines.same s t h hhealth,
      hcounts.of_slots (fun i hi => ?_) (by rw [h.2.2.1]) h.banks.2.2.1⟩
    obtain ⟨total, indication, hslot⟩ := h.1 i
    rw [hslot]
    exact hi
  reset t hslots hentries hconfig :=
    ⟨configurationLawful_keptByEngines.reset t hslots hentries hconfig,
      healthCoherent_keptByEngines.reset t hslots hentries hconfig,
      countsBelowLimits_of_standby (by rw [hconfig]; rfl)⟩
  restart s t hs hslots hentries hconfig hstrap :=
    ⟨configurationLawful_keptByEngines.restart s t hs.1 hslots hentries hconfig hstrap,
      healthCoherent_keptByEngines.restart s t hs.2.1 hslots hentries hconfig hstrap,
      countsBelowLimits_of_standby (by rw [hconfig])⟩
  cycleEnd s hs := by
    obtain ⟨hconfig, hhealth, hcounts⟩ := hs
    refine ⟨configurationLawful_keptByEngines.cycleEnd s hconfig, healthCoherent_keptByEngines.cycleEnd s hhealth,
      hcounts.of_slots (fun i hi => ?_) (by simp) (by simp)⟩
    rw [evaluateCycleEnd_slot]
    exact partnerStep_belowLimits hconfig.1 (missingStep_belowLimits (hconfig.hasLimits i) hi)
  stalled s hs := by
    obtain ⟨hconfig, hhealth, hcounts⟩ := hs
    refine ⟨configurationLawful_keptByEngines.stalled s hconfig, healthCoherent_keptByEngines.stalled s hhealth,
      hcounts.of_slots (fun i hi => ?_) (by simp) (by simp)⟩
    rw [stallSlots_slot]
    exact stallStep_belowLimits (hconfig.hasLimits i) hi
  swap s tag hs hpending := by
    obtain ⟨hconfig, hhealth, hcounts⟩ := hs
    have hlawful := configurationLawful_keptByEngines.swap s tag hconfig hpending
    refine ⟨hlawful, healthCoherent_keptByEngines.swap s tag hhealth hpending, fun hmonitor i hconfigured => ?_⟩
    have hmode : s.config.mode = .monitor := by simpa [swapBanks_config hpending] using hmonitor
    have hrecord : (swapBanks s).slotRecord i = s.shadowBank.slots[i] := by
      rw [State.slotRecord, (swapBanks_activeBank hpending).1]
    have hlimits := hlawful.hasLimits i
    rw [hrecord] at hconfigured hlimits ⊢
    rw [swapBanks_slot hpending, hmode]
    exact carrySlot_belowLimits hlimits (fun hold => (hcounts hmode i hold).2.2.2.2.2.1) hconfigured
  mode s change hs hpending := by
    obtain ⟨hconfig, hhealth, hcounts⟩ := hs
    refine ⟨configurationLawful_keptByEngines.mode s change hconfig hpending,
      healthCoherent_keptByEngines.mode s change hhealth hpending, ?_⟩
    have hrecords : ∀ i, (applyMode s).slotRecord i = s.slotRecord i := by simp [State.slotRecord]
    obtain ⟨hmode, hslots, -⟩ | ⟨hmode, hslots, -⟩ | ⟨hmode, hslots, -⟩ := applyMode_cases s
    · exact hcounts.of_slots (fun i hi => by rwa [hslots]) hmode hrecords
    · intro _ i _
      rw [hslots, hrecords]
      exact restartIn_belowLimits (hconfig.hasLimits i) (s.slot i)
        (if (s.slotRecord i).configured then .acquiring else .unused)
    · exact countsBelowLimits_of_standby hmode
  valid s m i hs hmode hvalid := by
    obtain ⟨hconfig, hhealth, hcounts⟩ := hs
    refine ⟨configurationLawful_keptByEngines.valid s m i hconfig hmode hvalid,
      healthCoherent_keptByEngines.valid s m i hhealth hmode hvalid, hcounts.of_slots (fun j hj => ?_) (by simp) (by simp)⟩
    rw [takeValid_slot]
    split_ifs with hi
    · rw [hi] at hj ⊢
      exact sampledSlot_belowLimits m (hconfig.hasLimits i) hj
    · exact hj
  write s b hs hnone :=
    ⟨configurationLawful_keptByEngines.write s b hs.1 hnone, healthCoherent_keptByEngines.write s b hs.2.1 hnone,
      hs.2.2.of_slots (fun _ hi => by simpa using hi) (by simp) (by simp)⟩
  commit s tag hs hvalid :=
    ⟨configurationLawful_keptByEngines.commit s tag hs.1 hvalid, healthCoherent_keptByEngines.commit s tag hs.2.1 hvalid,
      hs.2.2.of_slots (fun _ => id) rfl (fun _ => rfl)⟩
  cancel s hs :=
    ⟨configurationLawful_keptByEngines.cancel s hs.1, healthCoherent_keptByEngines.cancel s hs.2.1,
      hs.2.2.of_slots (fun _ => id) rfl (fun _ => rfl)⟩
  setMode s change hs hmode :=
    ⟨configurationLawful_keptByEngines.setMode s change hs.1 hmode,
      healthCoherent_keptByEngines.setMode s change hs.2.1 hmode, hs.2.2.of_slots (fun _ => id) rfl (fun _ => rfl)⟩
  defer s i hs hmode hused hlatched hset :=
    ⟨configurationLawful_keptByEngines.defer s i hs.1 hmode hused hlatched hset,
      healthCoherent_keptByEngines.defer s i hs.2.1 hmode hused hlatched hset,
      hs.2.2.of_slots (fun _ => id) rfl (fun _ => rfl)⟩
  clear s i hs hmode hused hlatched hset hout :=
    ⟨configurationLawful_keptByEngines.clear s i hs.1 hmode hused hlatched hset hout,
      healthCoherent_keptByEngines.clear s i hs.2.1 hmode hused hlatched hset hout,
      hs.2.2.of_slots (fun _ => id) rfl (fun _ => rfl)⟩
  release s i cause hs hmode hfaulted := by
    refine ⟨configurationLawful_keptByEngines.release s i cause hs.1 hmode hfaulted,
      healthCoherent_keptByEngines.release s i cause hs.2.1 hmode hfaulted,
      hs.2.2.of_slots (fun j hj => ?_) (by simp) (by simp)⟩
    rw [State.withSlot_slot]
    split_ifs with hi
    · rw [hi] at hj ⊢
      exact hj
    · exact hj

/-- Settles O55: a count that would reach its limit faults the slot, and a swap clamps what its new limits exceed. -/
theorem countsStayBelowLimits : Obligations.CountsStayBelowLimits := countsLawful_keptByEngines.keptByStep

end Sys2Proof.Machine
end

section
/-! PROOF. The law of the entries is kept by every step (R51, R59 to R61, R63, R65, R68, R69, R74). -/

namespace Sys2Proof.Machine

/-! ## One entry -/

theorem entry_cleared_coherent (r : EntryRecord) (tracked : Bool) : EntryState.cleared.coherent r tracked := by
  simp [EntryState.coherent, EntryState.cleared]

/-- An evaluation finds a position in the window or out of it (R54, R55). -/
theorem nextCondition_ne_unknown (form : EntryForm) (before : Condition) (inCore inExtended : Bool) :
    nextCondition form before inCore inExtended = .inWindow ∨ nextCondition form before inCore inExtended = .outWindow := by
  unfold nextCondition
  cases form
  · dsimp only
    split_ifs <;> simp
  · dsimp only
    split_ifs <;> simp

/-- The latch machines keep a used entry of a tracked slot coherent (R59 to R61). -/
theorem evaluateEntry_coherent {r : EntryRecord} (p : Word) {e : EntryState} {tracked : Bool} (hused : r.used = true)
    (h : e.coherent r tracked) : (evaluateEntry r p e).coherent r true := by
  obtain ⟨-, hlevel, hlatched, -⟩ := h
  have hfound : r.evaluate e.condition p = .inWindow ∨ r.evaluate e.condition p = .outWindow :=
    nextCondition_ne_unknown _ _ _ _
  unfold evaluateEntry
  dsimp only
  generalize r.evaluate e.condition p = found at hfound
  refine ⟨fun hunused => by simp [hused] at hunused, fun hmode => ?_, fun hmode => ?_, nofun⟩
  · obtain ⟨hlatch, hactive⟩ := hlevel hmode
    rw [hmode]
    obtain hidle | hon := hlatch
    · have hout : e.condition ≠ .inWindow := fun hin => by simp [hactive.mpr hin] at hidle
      obtain rfl | rfl := hfound <;> simp [nextLatch, hidle, hout]
    · have hin : e.condition = .inWindow := hactive.mp hon
      obtain rfl | rfl := hfound <;> simp [nextLatch, hon, hin]
  · obtain ⟨hnever, hdeferred, hheld⟩ := hlatched hmode
    rw [hmode]
    cases hlatch : e.latch with
    | active => exact absurd hlatch hnever
    | idle =>
      have hout : e.condition ≠ .inWindow := fun hin => hheld hin hlatch
      obtain rfl | rfl := hfound <;> simp [nextLatch, hout]
    | set => simp [nextLatch]
    | deferred =>
      have hin : e.condition = .inWindow := hdeferred hlatch
      obtain rfl | rfl := hfound <;> simp [nextLatch, hin]

/-- An entry whose slot leaves tracking is coherent whatever its slot does then (R65). -/
theorem leaveEntry_coherent {r : EntryRecord} {e : EntryState} {tracked : Bool} (tracked' : Bool)
    (h : e.coherent r tracked) : (leaveEntry e).coherent r tracked' := by
  obtain ⟨hunused, hlevel, -, -⟩ := h
  refine ⟨fun hu => by rw [hunused hu]; rfl, fun hmode => ?_, fun _ => ?_, fun _ => rfl⟩
  · obtain ⟨hlatch, -⟩ := hlevel hmode
    obtain hidle | hactive := hlatch
    · simp [leaveEntry, hidle]
    · simp [leaveEntry, hactive]
  · cases hlatch : e.latch <;> simp [leaveEntry, hlatch]

/-- An entry that stays is coherent still, unless its slot was tracked and is not any more. -/
theorem EntryState.coherent.stays {r : EntryRecord} {e : EntryState} {tracked tracked' : Bool}
    (h : e.coherent r tracked) (hstays : r.used = true → tracked = true → tracked' = true) : e.coherent r tracked' := by
  obtain ⟨hunused, hlevel, hlatched, huntracked⟩ := h
  refine ⟨hunused, hlevel, hlatched, fun hgone => ?_⟩
  cases hu : r.used with
  | false => rw [hunused hu]; rfl
  | true =>
    refine huntracked ?_
    cases ht : tracked with
    | false => rfl
    | true => simp [hstays hu ht] at hgone

@[simp] theorem leaveEntry_cleared : leaveEntry .cleared = .cleared := rfl

/-- Entries of one identity at a swap have one coherence (R68). -/
theorem EntryState.coherent.of_same {old new : EntryRecord} {e : EntryState} {tracked : Bool}
    (hsame : sameEntryIdentity old new = true) (h : e.coherent old tracked) : e.coherent new tracked := by
  simp only [sameEntryIdentity, decide_eq_true_eq] at hsame
  obtain ⟨hused, -, -, -, -, -, hmode⟩ := hsame
  unfold EntryState.coherent
  rwa [← hused, ← hmode]

/-! ## The law -/

/-- The entries of a happening in which slots leave tracking: of those, the used ones leave; the others stay (R65). -/
theorem coherent_after_leaving {r : EntryRecord} {e : EntryState} {before after : Fin 32 → SlotState}
    (h : e.coherent r (before r.slot).health.inPair) :
    (if r.used && leavers before after r.slot then leaveEntry e else e).coherent r (after r.slot).health.inPair := by
  split_ifs with hleaves
  · exact leaveEntry_coherent _ h
  · refine h.stays fun hused htracked => ?_
    simpa [leavers, hused, htracked] using hleaves

/-- What leaves every entry as it was, and moves no slot in or out of the pair, keeps the law. -/
theorem State.entriesCoherent.of_entries {s t : State} (hs : s.entriesCoherent) (hentries : ∀ j, t.entry j = s.entry j)
    (hpairs : ∀ i, (t.slot i).health.inPair = (s.slot i).health.inPair) (hmode : t.config.mode = s.config.mode)
    (hrecords : ∀ j, t.entryRecord j = s.entryRecord j) : t.entriesCoherent := by
  refine ⟨fun j => ?_, fun hstandby j => ?_⟩
  · rw [hentries, hrecords, hpairs]
    exact hs.1 j
  · rw [hentries]
    exact hs.2 (hmode ▸ hstandby) j

/-- Entries that are all cleared are coherent with any records and slots. -/
theorem entriesCoherent_of_cleared {t : State} (h : ∀ j, t.entry j = .cleared) : t.entriesCoherent :=
  ⟨fun j => by rw [h]; exact entry_cleared_coherent _ _, fun _ => h⟩

/-- A happening over all slots keeps the law, its leavers' entries leaving with them. -/
theorem State.entriesCoherent.of_leaving {s t : State} (hs : s.entriesCoherent) (after : Fin 32 → SlotState)
    (hslots : ∀ i, t.slot i = after i)
    (hentries : ∀ j, t.entry j =
      if (s.entryRecord j).used && leavers s.slot after (s.entryRecord j).slot then leaveEntry (s.entry j)
      else s.entry j)
    (hmode : t.config.mode = s.config.mode) (hrecords : ∀ j, t.entryRecord j = s.entryRecord j) : t.entriesCoherent := by
  refine ⟨fun j => ?_, fun hstandby j => ?_⟩
  · rw [hentries, hrecords, hslots]
    exact coherent_after_leaving (hs.1 j)
  · rw [hentries, hs.2 (hmode ▸ hstandby) j, leaveEntry_cleared, ite_self]

theorem entryStep_inPair_of_inPair (r : SlotRecord) {d : SlotState} (h : d.health.inPair = true) :
    (entryStep r d).health.inPair = true := by
  have hentry : d.health.makesEntry = false := by
    obtain h | h := (Health.inPair_iff _).mp h <;> rw [h] <;> rfl
  rw [entryStep, if_neg (by simp [hentry]), h]

/-- A slot with a latched fault stays FAULTED when a SAMPLE counts for it (R26). -/
theorem sampledSlot_of_latched {s : State} {i : Fin 32} (m : Sample) (h : (s.slot i).health.isLatchedFault = true) :
    (sampledSlot s i m).health = (s.slot i).health := by
  unfold sampledSlot
  rw [if_pos h]

/-- The taking of a valid SAMPLE keeps the law: the entries of its slot are evaluated, leave with it, or stay (R57, R65). -/
theorem takeValid_entriesCoherent {s : State} (hs : s.entriesCoherent) (i : Fin 32) (m : Sample)
    (hmode : s.config.mode = .monitor) : (takeValid i m s).entriesCoherent := by
  refine ⟨fun j => ?_, fun hstandby => by simp [hmode] at hstandby⟩
  have hj := hs.1 j
  rw [takeValid_entry, takeValid_slot]
  simp only [takeValid_readers]
  by_cases hslot : (s.entryRecord j).slot = i
  · rw [if_pos hslot]
    rw [hslot] at hj
    split_ifs with hconcerned htracked hentered
    · rw [htracked]
      exact evaluateEntry_coherent _ hconcerned.1 hj
    · exact leaveEntry_coherent _ hj
    · exact hj.stays fun _ hpair => absurd (entryStep_inPair_of_inPair _ hpair) hentered
    · refine hj.stays fun hused hpair => ?_
      have hlatched : (s.slot i).health.isLatchedFault = true := by
        by_contra hfree
        exact hconcerned ⟨hused, hslot, by simpa using hfree⟩
      rwa [sampledSlot_of_latched m hlatched]
  · rw [if_neg hslot, if_neg fun h => hslot h.2.1]
    exact hj

/-- The swap of a commit keeps the law: an entry of another identity is reset, one whose slot leaves the pair leaves, and the
others stay (R68, R69, R148). -/
theorem swapBanks_entriesCoherent {s : State} {tag : Byte} (hs : s.entriesCoherent)
    (hpending : s.config.pendingCommit = some tag) : (swapBanks s).entriesCoherent := by
  cases hmode : s.config.mode with
  | standby =>
    refine entriesCoherent_of_cleared fun j => ?_
    rw [swapBanks_entry hpending, hmode]
    exact hs.2 hmode j
  | monitor =>
    refine ⟨fun j => ?_, fun hstandby => by simp [swapBanks_config hpending, hmode] at hstandby⟩
    have hslots : ∀ i, (swapBanks s).slot i = carrySlot s.activeBank.slots[i] s.shadowBank.slots[i] (s.slot i) := by
      intro i
      rw [swapBanks_slot hpending, hmode]
    have hrecord : (swapBanks s).entryRecord j = s.shadowBank.entries[j] := by
      rw [State.entryRecord, (swapBanks_activeBank hpending).1]
    have hj : (s.entry j).coherent s.activeBank.entries[j] (s.slot s.activeBank.entries[j].slot).health.inPair := hs.1 j
    rw [swapBanks_entry hpending, hmode, hrecord, hslots]
    dsimp only [carryEntry]
    by_cases hsame : sameEntryIdentity s.activeBank.entries[j] s.shadowBank.entries[j] = true
    · rw [if_pos hsame]
      have hslot : s.activeBank.entries[j].slot = s.shadowBank.entries[j].slot := by
        simp only [sameEntryIdentity, decide_eq_true_eq] at hsame
        exact hsame.2.1
      rw [hslot] at hj
      exact coherent_after_leaving (after := fun i => carrySlot s.activeBank.slots[i] s.shadowBank.slots[i] (s.slot i))
        (hj.of_same hsame)
    · rw [if_neg hsame]
      exact entry_cleared_coherent _ _

/-- A mode change keeps the law: to MONITOR it comes from STANDBY, where every entry is cleared (R74, R150). -/
theorem applyMode_entriesCoherent {s : State} {change : Mode × Byte} (hlawful : s.configurationLawful)
    (hs : s.entriesCoherent) (hpending : s.config.pendingMode = some change) : (applyMode s).entriesCoherent := by
  have hrecords : ∀ j, (applyMode s).entryRecord j = s.entryRecord j := by simp [State.entryRecord]
  obtain ⟨hmode, hslots, hentries⟩ | ⟨hmode, hslots, hentries⟩ | ⟨-, -, hentries⟩ := applyMode_cases s
  · exact hs.of_entries hentries (fun i => by rw [hslots]) hmode hrecords
  · refine entriesCoherent_of_cleared fun j => ?_
    obtain ⟨target, tag⟩ := change
    have hchange : target ≠ s.config.mode := hlawful.2.2 target tag hpending
    rw [hentries]
    cases hnow : s.config.mode with
    | standby => exact hs.2 hnow j
    | monitor =>
      have htarget : target = .standby := by cases target <;> simp_all
      rw [applyMode_config, State.modeToBe, hpending, htarget] at hmode
      simp at hmode
  · exact entriesCoherent_of_cleared hentries

/-- The law of the entries, with the law of the configuration that it rests on. -/
def State.entriesLawful (s : State) : Prop := s.configurationLawful ∧ s.entriesCoherent

theorem entriesLawful_keptByEngines : KeptByEngines State.entriesLawful where
  same s t h hs := by
    refine ⟨configurationLawful_keptByEngines.same s t h hs.1,
      hs.2.of_entries h.2.1 (fun i => by rw [h.health i]) (by rw [h.2.2.1]) h.banks.2.2.2⟩
  reset t hslots hentries hconfig :=
    ⟨configurationLawful_keptByEngines.reset t hslots hentries hconfig, entriesCoherent_of_cleared hentries⟩
  restart s t hs hslots hentries hconfig hstrap :=
    ⟨configurationLawful_keptByEngines.restart s t hs.1 hslots hentries hconfig hstrap,
      entriesCoherent_of_cleared hentries⟩
  cycleEnd s hs :=
    ⟨configurationLawful_keptByEngines.cycleEnd s hs.1,
      hs.2.of_leaving _ (evaluateCycleEnd_slot s) (evaluateCycleEnd_entry s) (by simp) (by simp)⟩
  stalled s hs :=
    ⟨configurationLawful_keptByEngines.stalled s hs.1,
      hs.2.of_leaving _ (stallSlots_slot s) (fun j => by simp [stallSlots]) (by simp) (by simp)⟩
  swap s tag hs hpending :=
    ⟨configurationLawful_keptByEngines.swap s tag hs.1 hpending, swapBanks_entriesCoherent hs.2 hpending⟩
  mode s change hs hpending :=
    ⟨configurationLawful_keptByEngines.mode s change hs.1 hpending, applyMode_entriesCoherent hs.1 hs.2 hpending⟩
  valid s m i hs hmode hvalid :=
    ⟨configurationLawful_keptByEngines.valid s m i hs.1 hmode hvalid, takeValid_entriesCoherent hs.2 i m hmode⟩
  write s b hs hnone :=
    ⟨configurationLawful_keptByEngines.write s b hs.1 hnone,
      hs.2.of_entries (by simp) (by simp) (by simp) (by simp)⟩
  commit s tag hs hvalid :=
    ⟨configurationLawful_keptByEngines.commit s tag hs.1 hvalid,
      hs.2.of_entries (fun _ => rfl) (fun _ => rfl) rfl (fun _ => rfl)⟩
  cancel s hs :=
    ⟨configurationLawful_keptByEngines.cancel s hs.1, hs.2.of_entries (fun _ => rfl) (fun _ => rfl) rfl (fun _ => rfl)⟩
  setMode s change hs hmode :=
    ⟨configurationLawful_keptByEngines.setMode s change hs.1 hmode,
      hs.2.of_entries (fun _ => rfl) (fun _ => rfl) rfl (fun _ => rfl)⟩
  defer s i hs hmode hused hlatched hset := by
    refine ⟨configurationLawful_keptByEngines.defer s i hs.1 hmode hused hlatched hset, fun j => ?_,
      fun hstandby => by simp [hmode] at hstandby⟩
    rw [State.withEntry_entry]
    simp only [State.withEntry_readers]
    split_ifs with hj
    · rw [hj]
      obtain ⟨-, -, -, huntracked⟩ := hs.2.1 i
      rw [hset] at huntracked
      have htracked : (s.slot (s.entryRecord i).slot).health.inPair = true := by
        by_contra hnot
        simpa using huntracked (by simpa using hnot)
      simp [EntryState.coherent, hused, hlatched, htracked]
    · exact hs.2.1 j
  clear s i hs hmode hused hlatched hset hout := by
    refine ⟨configurationLawful_keptByEngines.clear s i hs.1 hmode hused hlatched hset hout, fun j => ?_,
      fun hstandby => by simp [hmode] at hstandby⟩
    rw [State.withEntry_entry]
    simp only [State.withEntry_readers]
    split_ifs with hj
    · rw [hj]
      obtain ⟨-, -, -, huntracked⟩ := hs.2.1 i
      simp only [EntryState.coherent, hused, hlatched]
      simpa [hout] using huntracked
    · exact hs.2.1 j
  release s i cause hs hmode hfaulted := by
    refine ⟨configurationLawful_keptByEngines.release s i cause hs.1 hmode hfaulted,
      hs.2.of_entries (by simp) (fun j => ?_) (by simp) (by simp)⟩
    rw [State.withSlot_slot]
    split_ifs with hj
    · rw [hj, hfaulted]
      rfl
    · rfl

/-- Settles O56: the latch machines, the leaving of tracking, the swap and the acknowledgement each leave an entry as its
condition and its slot ask. -/
theorem entryLawKept : Obligations.EntryLawKept := entriesLawful_keptByEngines.keptByStep

end Sys2Proof.Machine
end

section
/-! PROOF. The Event Queue runs on: an operation that does not restart the part takes records out of the queue and posts
records behind the others, their sequence numbers in order (R103 to R107). -/

namespace Sys2Proof.Machine

/-! ## A posting (R103 to R105) -/

theorem withoutYoungest_append_cons {p : Fin 4} {older younger : List EventRecord} {x : EventRecord} (hx : x.priority = p)
    (hyounger : ∀ y ∈ younger, y.priority ≠ p) : withoutYoungest p (older ++ x :: younger) = older ++ younger := by
  have hnone : ∀ y ∈ younger.reverse, ¬ decide (y.priority = p) = true := by simpa using hyounger
  simp only [withoutYoungest, List.reverse_append, List.reverse_cons, List.append_assoc, List.singleton_append]
  rw [List.eraseP_append_right _ hnone, List.eraseP_cons_of_pos (by simpa using hx)]
  simp

/-- A priority that no record held is below, and that one has, is the lowest held. -/
theorem lowestPriority_eq {records : List EventRecord} {x : EventRecord} (hx : x ∈ records)
    (hleast : ∀ y ∈ records, x.priority ≤ y.priority) : lowestPriority records = x.priority := by
  induction records with
  | nil => simp at hx
  | cons r l ih =>
    have hcons : lowestPriority (r :: l) = min r.priority (lowestPriority l) := rfl
    have hbelow : x.priority ≤ lowestPriority l := by
      by_cases hl : l = []
      · subst hl
        exact Fin.le_last _
      · obtain ⟨y, hy, hlowest⟩ := lowestPriority_mem hl
        exact hlowest ▸ hleast y (List.mem_cons_of_mem _ hy)
    rw [hcons]
    rcases List.mem_cons.mp hx with rfl | htail
    · exact min_eq_left hbelow
    · rw [ih htail fun y hy => hleast y (List.mem_cons_of_mem _ hy)]
      exact min_eq_right (hleast r (List.mem_cons_self))

/-- Settles O34: the three branches of a posting, the lowest priority held being that of the record displaced. -/
theorem postingKeepsOrDisplaces : Obligations.PostingKeepsOrDisplaces := by
  intro q cycle priority detail
  refine ⟨?_, fun hroom => ?_, fun hfull => ?_, fun hfull hleast => ?_, ?_⟩
  · simp only [EventQueue.post]
    split_ifs <;> rfl
  · simp [EventQueue.post, Config.eventCapacity, hroom]
  · have hlost : satInc q.lost = BitVec.ofNat 16 (min 65535 (q.lost.toNat + 1)) := rfl
    simp only [EventQueue.post, Config.eventCapacity, if_neg (Nat.not_lt.mpr hfull), ← hlost]
    split_ifs <;> rfl
  · have hheld : q.records ≠ [] := by rintro hempty; simp [hempty] at hfull
    obtain ⟨x, hx, hlowest⟩ := lowestPriority_mem hheld
    have hnot : ¬ lowestPriority q.records < priority := by
      rw [← hlowest]
      exact not_lt.mpr (hleast x hx)
    simp [EventQueue.post, Config.eventCapacity, Nat.not_lt.mpr hfull, hnot]
  · intro older x younger hfull hsplit hbelow hleast hyounger
    have hlowest : lowestPriority q.records = x.priority := lowestPriority_eq (by simp [hsplit]) hleast
    simp only [EventQueue.post, Config.eventCapacity, if_neg (Nat.not_lt.mpr hfull), hlowest, if_pos hbelow]
    rw [hsplit, withoutYoungest_append_cons rfl hyounger]

/-! ## A queue that runs on from another -/

/-- The queue holds some of what the other held and some of the records posted meanwhile, in order, their sequence numbers
running on; and it stays within the capacity. -/
def EventQueue.runsOn (q r : EventQueue) : Prop :=
  (q.records.length ≤ 48 → r.records.length ≤ 48) ∧
  ∃ posted : List EventRecord, r.records.Sublist (q.records ++ posted) ∧
    r.nextSequence = q.nextSequence + BitVec.ofNat 16 posted.length ∧
    ∀ k (h : k < posted.length), posted[k].sequence = q.nextSequence + BitVec.ofNat 16 k

namespace EventQueue.runsOn

theorem of_records {q r : EventQueue} (hrecords : r.records.Sublist q.records) (hnext : r.nextSequence = q.nextSequence) :
    q.runsOn r :=
  ⟨fun h => hrecords.length_le.trans h, [], by simpa using hrecords, by simp [hnext], by simp⟩

theorem refl (q : EventQueue) : q.runsOn q := of_records (List.Sublist.refl _) rfl

theorem trans {q r u : EventQueue} (hqr : q.runsOn r) (hru : r.runsOn u) : q.runsOn u := by
  obtain ⟨hcapacity, first, hfirst, hnext, hnumbers⟩ := hqr
  obtain ⟨hcapacity', second, hsecond, hnext', hnumbers'⟩ := hru
  refine ⟨fun h => hcapacity' (hcapacity h), first ++ second, ?_, ?_, fun k hk => ?_⟩
  · rw [← List.append_assoc]
    exact hsecond.trans (hfirst.append (List.Sublist.refl _))
  · rw [hnext', hnext, List.length_append, BitVec.ofNat_add, BitVec.add_assoc]
  · by_cases hfirstk : k < first.length
    · rw [List.getElem_append_left hfirstk, hnumbers]
    · rw [List.getElem_append_right (by omega), hnumbers', hnext, BitVec.add_assoc, ← BitVec.ofNat_add]
      congr 2
      omega

theorem post (q : EventQueue) (cycle : Word) (p : Fin 4) (d : Detail) : q.runsOn (q.post cycle p d) := by
  refine ⟨q.post_length cycle p d, [{ sequence := q.nextSequence, cycle, priority := p, detail := d }], ?_, ?_, by simp⟩
  · unfold EventQueue.post
    dsimp only
    split_ifs
    · exact List.Sublist.refl _
    · exact (withoutYoungest_sublist _ _).append (List.Sublist.refl _)
    · exact List.sublist_append_left _ _
  · unfold EventQueue.post
    dsimp only
    split_ifs <;> rfl

theorem postEach (q : EventQueue) (cycle : Word) (l : List (Fin 4 × Detail)) : q.runsOn (q.postEach cycle l) := by
  induction l generalizing q with
  | nil => exact refl q
  | cons r l ih => exact (post q cycle r.1 r.2).trans (ih _)

end EventQueue.runsOn

/-! ## What each operation does to the queue -/

theorem post_runsOn (p : Fin 4) (d : Detail) (s : State) : s.queue.runsOn (post p d s).queue := .post _ _ _ _

theorem postAll_runsOn (l : List (Fin 4 × Detail)) (s : State) : s.queue.runsOn (postAll l s).queue := by
  rw [postAll_postEach]
  exact .postEach _ _ _

theorem leaveTracking_runsOn (left : Fin 32 → Bool) (s : State) : s.queue.runsOn (leaveTracking left s).queue := by
  rw [leaveTracking_queue left s 0]
  exact .postEach _ _ _

theorem deliver_runsOn (i : Fin 32) (p : Word) (s : State) : s.queue.runsOn (deliver i p s).queue := by
  rw [deliver_queue]
  exact .postEach _ _ _

theorem changeSlots_runsOn (after : Fin 32 → SlotState) (l : List (Fin 4 × Detail)) (s : State) :
    s.queue.runsOn (changeSlots after l s).queue := by
  rw [changeSlots_queue after l s 0]
  exact .postEach _ _ _

theorem takeValid_runsOn (i : Fin 32) (m : Sample) (s : State) : s.queue.runsOn (takeValid i m s).queue := by
  have hjudged : ∀ l d, s.queue.runsOn (postAll l (s.withSlot i d)).queue := by
    intro l d
    simpa using postAll_runsOn l (s.withSlot i d)
  unfold takeValid
  dsimp only
  split_ifs
  · simpa using EventQueue.runsOn.refl s.queue
  · exact ((hjudged _ _).trans (leaveTracking_runsOn _ _)).trans (deliver_runsOn _ _ _)
  · exact (hjudged _ _).trans (deliver_runsOn _ _ _)
  · exact (hjudged _ _).trans (leaveTracking_runsOn _ _)
  · exact hjudged _ _

theorem takeSample_runsOn (address : Byte) (body : List Byte) (s : State) :
    s.queue.runsOn (takeSample address body s).1.queue :=
  takeSample_kept (law := fun u => s.queue.runsOn u.queue) address body s (.refl _) (fun _ _ hu => hu)
    fun m i _ => by simpa using takeValid_runsOn i m s

theorem postFinding_runsOn (e : CycleEnding) (s : State) : s.queue.runsOn (postFinding e s).queue := by
  cases e with
  | close bytes => exact .refl _
  | deadline => exact post_runsOn _ _ _
  | overtaken => exact post_runsOn _ _ _

theorem postCapture_runsOn (s : State) : s.queue.runsOn (postCapture s).queue := by
  unfold postCapture
  split
  · exact .refl _
  · exact .post _ _ _ _

theorem settleCycle_runsOn (e : CycleEnding) (s : State) : s.queue.runsOn (settleCycle e s).queue := by
  have hend := changeSlots_runsOn (partnerStep (postCapture (postFinding e (closeLink s))).activeBank fun i =>
    missingStep (postCapture (postFinding e (closeLink s))).activeBank.slots[i]
      ((postCapture (postFinding e (closeLink s))).slot i))
  simp only [settleCycle, settleLines_keeps]
  have hclose : (closeLink s).queue = s.queue := by simp
  rw [← hclose]
  exact ((postFinding_runsOn e _).trans (postCapture_runsOn _)).trans (hend _ _)

theorem drawItems_runsOn (s : State) : s.queue.runsOn (drawItems s).queue :=
  .of_records (List.drop_sublist _ _) rfl

theorem endCycle_runsOn (e : CycleEnding) (s : State) : s.queue.runsOn (endCycle e s).queue := by
  obtain ⟨-, hqueue, -⟩ := endCycle_values e s
  obtain ⟨-, hdrawn, -⟩ := buildReport_values (settleCycle e s)
  rw [hqueue, hdrawn]
  exact (settleCycle_runsOn e s).trans (drawItems_runsOn _)

theorem resume_runsOn (n : Word) (s : State) : s.queue.runsOn (resume n s).queue := by
  unfold resume
  dsimp only
  split_ifs
  · simpa using post_runsOn 3 (.cycleResumed n) s
  · exact .refl _

theorem carryOver_runsOn (old : Bank) (s : State) : s.queue.runsOn (carryOver old s).queue := by
  have hposted : ∀ l (u : State), u.queue = s.queue → s.queue.runsOn (postAll l u).queue :=
    fun l u hu => hu ▸ postAll_runsOn l u
  exact hposted _ _ (by simp)

theorem swapBanks_runsOn (s : State) : s.queue.runsOn (swapBanks s).queue := by
  unfold swapBanks
  split
  · exact .refl _
  · have hcarried : ∀ (old : Bank) (u : State), u.queue.runsOn (carryBanks old u).queue := by
      intro old u
      unfold carryBanks
      split
      · simp only [settleLines_keeps]
        exact carryOver_runsOn old u
      · simpa using EventQueue.runsOn.refl u.queue
    simpa using hcarried s.activeBank (s.withConfig { s.config with active := s.config.active.other })

theorem applyMode_runsOn (s : State) : s.queue.runsOn (applyMode s).queue := by
  unfold applyMode
  split
  · exact .refl _
  · split_ifs
    · simpa using post_runsOn 2 (.modeChanged s.config.mode .monitor) s
    · exact .refl _
  · simpa using post_runsOn 2 (.modeChanged s.config.mode .standby) s

theorem startCycle_runsOn (n : Word) (s : State) : s.queue.runsOn (startCycle n s).queue := by
  obtain ⟨-, -, -, -, hqueue⟩ := startCycle_values n s
  rw [hqueue]
  have hclear : (clearIndications s).queue = s.queue := by simp
  rw [← hclear]
  exact (swapBanks_runsOn _).trans (applyMode_runsOn _)

theorem takeOpen_runsOn (o : OpenBody) (s : State) (hrunning : s.pins.phase = .running) :
    s.queue.runsOn (takeOpen o s).queue :=
  takeOpen_kept (law := fun u => s.queue.runsOn u.queue) o s (.refl _) hrunning (fun u acks hu => by simpa using hu)
    (fun _ _ _ hu => hu.trans (post_runsOn _ _ _)) (fun _ _ hu => hu) (fun _ e hu _ _ => hu.trans (endCycle_runsOn e _))
    (fun _ n hu _ => hu.trans (resume_runsOn n _)) fun _ n hu _ => hu.trans (startCycle_runsOn n _)

theorem stallSlots_runsOn (s : State) : s.queue.runsOn (stallSlots s).queue := changeSlots_runsOn _ _ s

theorem stall_runsOn (s : State) : s.queue.runsOn (stall s).queue := by
  simp only [stall, settleLines_keeps]
  refine EventQueue.runsOn.trans ?_ (stallSlots_runsOn _)
  exact post_runsOn 3 _ (s.withCycle _)

theorem takeEdge_runsOn (s : State) : s.queue.runsOn (takeEdge s).queue := by
  unfold takeEdge
  split
  · exact .refl _
  · exact post_runsOn _ _ _

theorem qualifyEdge_runsOn (s : State) : s.queue.runsOn (qualifyEdge s).queue := by
  unfold qualifyEdge
  dsimp only
  split_ifs
  · exact takeEdge_runsOn (s.withPins { s.pins with qualifier := .high, capture := true, captureSampled := true })
  · exact .refl _

theorem findCapture_runsOn (high : Bool) (s : State) : s.queue.runsOn (findCapture high s).queue := by
  rcases findCapture_cases high s with ⟨p, -, -, hpins⟩ | hedge
  · rw [hpins]
    exact .refl _
  · rw [hedge]
    exact qualifyEdge_runsOn s

theorem handleWaiting_runsOn (s : State) (hrunning : s.pins.phase = .running) :
    s.queue.runsOn (handleWaiting s).queue :=
  handleWaiting_kept (law := fun u => s.queue.runsOn u.queue) (fun _ _ hu _ => hu)
    (fun u o hu hphase _ => hu.trans (takeOpen_runsOn o u hphase)) (fun _ hu => hu) (fun _ _ hu _ => by simpa using hu)
    s (.refl _) hrunning

theorem receiveCp_runsOn (run : Run) (s : State) (hawake : s.isAwake = true) :
    s.queue.runsOn (receiveCp run s).queue :=
  receiveCp_kept (law := fun u => s.queue.runsOn u.queue) run s (.refl _) hawake (fun hs => by simpa using hs)
    (fun _ _ hu => by simpa using hu) fun u hu hphase => hu.trans (handleWaiting_runsOn u hphase)

theorem takeClose_runsOn (n : Word) (bytes : List Byte) (s : State) : s.queue.runsOn (takeClose n bytes s).queue := by
  unfold takeClose
  split_ifs
  · exact endCycle_runsOn _ _
  · exact post_runsOn _ _ _

theorem receiveSp_runsOn (run : Run) (s : State) : s.queue.runsOn (receiveSp run s).queue :=
  receiveSp_kept (law := fun u => s.queue.runsOn u.queue) run s (.refl _) (fun hs => by simpa using hs)
    (fun _ _ hu => by simpa using hu) (fun u address body hu _ _ => hu.trans (takeSample_runsOn address body u))
    (fun _ hu => hu) fun u n hu _ => hu.trans (takeClose_runsOn n run.bytes u)

theorem deadlineEnd_runsOn (s : State) : s.queue.runsOn (deadlineEnd s).queue := by
  unfold deadlineEnd
  have hbefore : (countCycle (fun c => { c with deadlineEnds := satInc c.deadlineEnds }) (reachDeadline s)).queue =
      s.queue := by simp
  rw [← hbefore]
  exact endCycle_runsOn _ _

theorem releaseSlot_runsOn (i : Fin 32) (cause : FaultCause) (s : State) :
    s.queue.runsOn (releaseSlot i cause s).queue := by
  simp only [releaseSlot, settleLines_keeps]
  exact post_runsOn _ _ (s.withSlot i _)

theorem acknowledgeEntry_runsOn (q : Request) (i : Fin 64) (s : State) :
    s.queue.runsOn (acknowledgeEntry q i s).queue := by
  unfold acknowledgeEntry
  dsimp only
  split_ifs
  · simpa using EventQueue.runsOn.refl s.queue
  · simp only [done_keeps, settleLines_keeps]
    exact post_runsOn _ _ (s.withEntry i _)

theorem runAckEvent_runsOn (q : Request) (s : State) : s.queue.runsOn (runAckEvent q s).queue := by
  unfold runAckEvent
  split
  · split_ifs
    · exact .refl _
    · split
      · exact .refl _
      · split_ifs
        · exact .refl _
        · exact .refl _
        · split
          · exact acknowledgeEntry_runsOn _ _ _
          · exact .refl _
          · exact .refl _
  · exact .refl _

theorem runAckChannel_runsOn (q : Request) (s : State) : s.queue.runsOn (runAckChannel q s).queue := by
  unfold runAckChannel
  split
  · split_ifs
    · exact .refl _
    · split
      · exact .refl _
      · split_ifs
        · exact .refl _
        · split
          · exact .refl _
          · exact .refl _
          · exact releaseSlot_runsOn _ _ _
          · exact .refl _
  · exact .refl _

theorem runClearCounters_runsOn (q : Request) (s : State) : s.queue.runsOn (runClearCounters q s).queue :=
  .of_records (List.Sublist.refl _) rfl

theorem executeAs_runsOn (kind : Option RequestKind) (run : Request → State → State) (s : State)
    (hrun : ∀ q u, State.queue u |>.runsOn (run q u).queue) : s.queue.runsOn (executeAs kind run s).queue := by
  rcases executeAs_cases kind run s with hsame | ⟨q, -, -, -, ⟨hran, -⟩ | hrefused⟩
  · rw [hsame]
    exact .refl _
  · rw [hran]
    exact hrun q s
  · rw [hrefused]
    exact .refl _

/-- Every command but a reset and RESTART leaves a queue that runs on from the one it found. -/
theorem exec_runsOn {c : Instr} {s t : State} (hexec : exec c s = .next t) (hreset : isResetCommand c = false)
    (hrestart : c ≠ .restart) : s.queue.runsOn t.queue := by
  have hsame : ∀ {u : State}, u.queue = s.queue → s.queue.runsOn u.queue := fun h => h ▸ .refl _
  cases c <;> simp only [isResetCommand, Bool.true_eq_false, ne_eq, not_true_eq_false] at hreset hrestart <;>
    cases hexec
  case initialisationEnd => split_ifs <;> exact .refl _
  case frameReceivedCp run =>
    split_ifs with hreceived
    exacts [receiveCp_runsOn run s (State.receives_awake hreceived), .refl _]
  case frameReceivedSp run => split_ifs; exacts [receiveSp_runsOn run s, .refl _]
  case frameSentCp => split_ifs <;> exact .refl _
  case frameSentSp => split_ifs <;> exact .refl _
  case openHoldRelease => split_ifs with hheld; exacts [handleWaiting_runsOn s hheld.1, .refl _]
  case closeDeadlineExpiry => split_ifs; exacts [deadlineEnd_runsOn s, .refl _]
  case periodMaximumExpiry => split_ifs; exacts [stall_runsOn s, .refl _]
  case captureEdge => split_ifs; exacts [qualifyEdge_runsOn s, .refl _]
  case captureLineChange high => split_ifs; exacts [findCapture_runsOn high s, .refl _]
  case readEntry => exact executeAs_runsOn _ _ s fun q u => by simpa using EventQueue.runsOn.refl u.queue
  case writeShadow => exact executeAs_runsOn _ _ s fun q u => by simpa using EventQueue.runsOn.refl u.queue
  case syncShadow => exact executeAs_runsOn _ _ s fun q u => by simpa using EventQueue.runsOn.refl u.queue
  case commit => exact executeAs_runsOn _ _ s fun q u => by simpa using EventQueue.runsOn.refl u.queue
  case abortCommit => exact executeAs_runsOn _ _ s fun q u => by simpa using EventQueue.runsOn.refl u.queue
  case setMode => exact executeAs_runsOn _ _ s fun q u => by simpa using EventQueue.runsOn.refl u.queue
  case ackEvent => exact executeAs_runsOn _ _ s runAckEvent_runsOn
  case ackChannel => exact executeAs_runsOn _ _ s runAckChannel_runsOn
  case readChannel => exact executeAs_runsOn _ _ s fun q u => by simpa using EventQueue.runsOn.refl u.queue
  case readStatus => exact executeAs_runsOn _ _ s fun q u => by simpa using EventQueue.runsOn.refl u.queue
  case clearCounters => exact executeAs_runsOn _ _ s runClearCounters_runsOn
  case unknownRequest => exact executeAs_runsOn _ _ s fun q u => by simpa using EventQueue.runsOn.refl u.queue

/-- Settles O35: the queue every such command leaves runs on from the one it found. -/
theorem queueStaysInPostingOrder : Obligations.QueueStaysInPostingOrder :=
  fun _ _ _ hexec hreset hrestart => (exec_runsOn hexec hreset hrestart).2

end Sys2Proof.Machine
end

section
/-! PROOF. The capacities of the queues and of the Sent Set (R106, R113, R119, R163, R184). -/

namespace Sys2Proof.Machine

/-! ## The data of responses (R163) -/

theorem SlotRecord.content_length (r : SlotRecord) : r.content.length = 29 := rfl

theorem EntryRecord.content_length (r : EntryRecord) : r.content.length = 12 := rfl

theorem LinkRecord.content_length (r : LinkRecord) : r.content.length = 8 := rfl

theorem statusData_length (s : State) : (statusData s).length = 56 := rfl

theorem SlotState.data_length (d : SlotState) : d.data.length = 18 := rfl

theorem entryData_length {s : State} {name : BankName} {isActive : Bool} {table : Table} {index : Byte}
    {data : List Byte} (hdata : entryData s name isActive table index = some data) : data.length ≤ 29 := by
  cases table with
  | slot =>
    obtain ⟨i, -, rfl⟩ := Option.map_eq_some_iff.mp hdata
    exact (SlotRecord.content_length _).le
  | entry =>
    obtain ⟨i, -, rfl⟩ := Option.map_eq_some_iff.mp hdata
    rw [List.length_append, EntryRecord.content_length]
    split_ifs <;> simp
  | link =>
    simp only [entryData, Option.ite_none_right_eq_some, Option.some.injEq] at hdata
    obtain ⟨-, rfl⟩ := hdata
    rw [LinkRecord.content_length]
    omega

/-- The responses a Command Unit holds are some of another's, and new ones whose data is within 56 bytes. -/
def CommandUnit.answersWithin (c d : CommandUnit) : Prop :=
  ∀ r ∈ d.responses, r ∈ c.responses ∨ r.data.length ≤ 56

namespace CommandUnit.answersWithin

theorem of_sublist {c d : CommandUnit} (h : d.responses.Sublist c.responses) : c.answersWithin d :=
  fun _ hr => .inl (h.subset hr)

theorem refl (c : CommandUnit) : c.answersWithin c := of_sublist (List.Sublist.refl _)

theorem trans {c d e : CommandUnit} (hcd : c.answersWithin d) (hde : d.answersWithin e) : c.answersWithin e :=
  fun r hr => (hde r hr).elim (hcd r) .inr

theorem respond {c d : CommandUnit} (hd : d.responses = c.responses) {r : Response} (hr : r.data.length ≤ 56) :
    c.answersWithin (d.respond r) := by
  intro x hx
  rcases List.mem_append.mp hx with hold | hnew
  · exact .inl (hd ▸ hold)
  · exact .inr (List.mem_singleton.mp hnew ▸ hr)

end CommandUnit.answersWithin

section
variable (q : Request) (s : State)

theorem complete_answers (outcome : RequestOutcome) (reason : Reason) {data : List Byte} (hdata : data.length ≤ 56) :
    s.commands.answersWithin (complete q outcome reason data s).commands := .respond rfl hdata

theorem refuse_answers (reason : Reason) : s.commands.answersWithin (refuse q reason s).commands :=
  complete_answers q s _ _ (Nat.zero_le _)

theorem done_answers {data : List Byte} (hdata : data.length ≤ 56) {t : State} (ht : t.commands = s.commands) :
    s.commands.answersWithin (done q data t).commands := ht ▸ complete_answers q t _ _ hdata

theorem runReadEntry_answers : s.commands.answersWithin (runReadEntry q s).commands := by
  unfold runReadEntry
  split
  · split
    · split
      · rename_i data hdata
        refine done_answers q s ?_ rfl
        have := entryData_length hdata
        simp only [List.length_append, List.length_cons, List.length_nil]
        omega
      · exact refuse_answers q s _
    · exact refuse_answers q s _
  · exact refuse_answers q s _

theorem runWriteShadow_answers : s.commands.answersWithin (runWriteShadow q s).commands := by
  unfold runWriteShadow
  split
  · split
    · exact refuse_answers q s _
    · split_ifs
      · exact refuse_answers q s _
      · exact refuse_answers q s _
      · split
        · exact done_answers q s (Nat.zero_le _) (by simp)
        · exact refuse_answers q s _
  · exact refuse_answers q s _

theorem runSyncShadow_answers : s.commands.answersWithin (runSyncShadow q s).commands := by
  unfold runSyncShadow
  split_ifs
  · exact refuse_answers q s _
  · exact done_answers q s (Nat.zero_le _) (by simp)

theorem runCommit_answers : s.commands.answersWithin (runCommit q s).commands := by
  unfold runCommit
  split_ifs
  · exact refuse_answers q s _
  · split
    · exact complete_answers q s _ _ (by simp)
    · exact .refl _

theorem runAbortCommit_answers : s.commands.answersWithin (runAbortCommit q s).commands := by
  unfold runAbortCommit
  split
  · split_ifs
    · exact .trans (.respond rfl (Nat.zero_le _)) (done_answers q (cancelCommit _ s) (Nat.zero_le _) rfl)
    · exact refuse_answers q s _
    · exact refuse_answers q s _
  · exact refuse_answers q s _

theorem runSetMode_answers : s.commands.answersWithin (runSetMode q s).commands := by
  unfold runSetMode
  split
  · split
    · exact refuse_answers q s _
    · split_ifs
      · exact refuse_answers q s _
      · exact done_answers q s (Nat.zero_le _) rfl
      · exact .refl _
  · exact refuse_answers q s _

theorem acknowledgeEntry_answers (i : Fin 64) : s.commands.answersWithin (acknowledgeEntry q i s).commands := by
  by_cases hin : (s.entry i).condition = .inWindow
  · rw [acknowledgeEntry_inWindow q hin]
    exact done_answers q s (by simp) (by simp)
  · rw [acknowledgeEntry_notInWindow q hin]
    exact done_answers q s (by simp) (by simp)

theorem runAckEvent_answers : s.commands.answersWithin (runAckEvent q s).commands := by
  unfold runAckEvent
  split
  · split_ifs
    · exact refuse_answers q s _
    · split
      · exact refuse_answers q s _
      · split_ifs
        · exact refuse_answers q s _
        · exact refuse_answers q s _
        · split
          · exact acknowledgeEntry_answers q s _
          · exact done_answers q s (by simp) rfl
          · exact refuse_answers q s _
  · exact refuse_answers q s _

theorem runAckChannel_answers : s.commands.answersWithin (runAckChannel q s).commands := by
  unfold runAckChannel
  split
  · split_ifs
    · exact refuse_answers q s _
    · split
      · exact refuse_answers q s _
      · split_ifs
        · exact refuse_answers q s _
        · split
          · exact refuse_answers q s _
          · exact refuse_answers q s _
          · exact done_answers q s (Nat.zero_le _) (by simp)
          · exact refuse_answers q s _
  · exact refuse_answers q s _

theorem runReadChannel_answers : s.commands.answersWithin (runReadChannel q s).commands := by
  unfold runReadChannel
  split
  · split
    · exact refuse_answers q s _
    · exact done_answers q s (by simp [SlotState.data_length]) rfl
  · exact refuse_answers q s _

theorem runClearCounters_answers : s.commands.answersWithin (runClearCounters q s).commands :=
  .trans (d := (zeroCounters s).commands) (.refl _) (done_answers q (zeroCounters s) (Nat.zero_le _) rfl)

end

theorem swapBanks_answers (s : State) : s.commands.answersWithin (swapBanks s).commands := by
  cases hpending : s.config.pendingCommit with
  | none => rw [swapBanks_none hpending]; exact .refl _
  | some tag =>
    rw [swapBanks_commands hpending]
    exact .respond rfl (by simp [bytes16])

theorem applyMode_answers (s : State) : s.commands.answersWithin (applyMode s).commands := by
  unfold applyMode
  split
  · exact .refl _
  · split_ifs <;> exact .respond (by simp [CommandUnit.release]) (Nat.zero_le _)
  · exact .respond (by simp [CommandUnit.release]) (Nat.zero_le _)

theorem startCycle_answers (n : Word) (s : State) : s.commands.answersWithin (startCycle n s).commands := by
  obtain ⟨-, -, -, hcommands, -⟩ := startCycle_values n s
  rw [hcommands]
  have hclear : (clearIndications s).commands = s.commands := by simp
  rw [← hclear]
  exact (swapBanks_answers _).trans (applyMode_answers _)

/-! ## The capacities -/

/-- A state within the capacities keeps within them when its queue runs on, no outbound frame is added, the Sent Set stays
and the new responses are within 56 bytes. -/
theorem State.withinCapacities.of_same {s t : State} (hs : s.withinCapacities) (hqueue : s.queue.runsOn t.queue)
    (houtbound : t.frames.outbound.length ≤ s.frames.outbound.length)
    (hevents : t.reports.sentEvents = s.reports.sentEvents)
    (hresponses : t.reports.sentResponses = s.reports.sentResponses)
    (hanswers : s.commands.answersWithin t.commands) : t.withinCapacities := by
  obtain ⟨hrecords, hplaces, hcount, hcountResponses, hsent, hsentResponses, hdata⟩ := hs
  refine ⟨hqueue.1 hrecords, houtbound.trans hplaces, hevents ▸ hcount, hresponses ▸ hcountResponses, hevents ▸ hsent,
    hresponses ▸ hsentResponses, fun r hr => (hanswers r hr).elim (hdata r) id⟩

/-- A part with nothing queued, placed or sent is within the capacities when its responses are. -/
theorem withinCapacities_of_empty {s : State} (hqueue : s.queue = .initial) (hplaces : s.frames.outbound.length ≤ 4)
    (hreports : s.reports = .initial) (hdata : ∀ r ∈ s.commands.responses, r.data.length ≤ 56) : s.withinCapacities := by
  refine ⟨?_, hplaces, ?_, ?_, ?_, ?_, hdata⟩ <;> simp [hqueue, hreports, EventQueue.initial, ReportBuilder.initial]

/-- The items of a build are within the capacity of the Sent Set, those repeated sent at most four times (R115 to R119). -/
theorem endCycle_withinCapacities (e : CycleEnding) {s : State} (hs : s.withinCapacities) :
    (endCycle e s).withinCapacities := by
  obtain ⟨hrecords, hplaces, hcount, hcountResponses, hsent, hsentResponses, hdata⟩ := hs
  obtain ⟨hreports, -, hcommands⟩ := endCycle_values e s
  obtain ⟨hbuilt, -, hbuiltCommands⟩ := buildReport_values (settleCycle e s)
  have hsettledReports : (settleCycle e s).reports = s.reports := by simp
  have hsettledCommands : (settleCycle e s).commands = s.commands := by simp
  have hkept : (s.reports.sentEvents.filter SentEvent.isRetained).length ≤ 8 :=
    (List.length_filter_le _ _).trans hcount
  have hkeptResponses : (s.reports.sentResponses.filter SentResponse.isRetained).length ≤ 2 :=
    (List.length_filter_le _ _).trans hcountResponses
  refine ⟨(endCycle_runsOn e s).1 hrecords, by simpa using hplaces, ?_, ?_, ?_, ?_, ?_⟩
  · simp only [hreports, hbuilt, drawItems, State.withCommands_reports, State.withQueue_reports,
      State.withReports_reports, hsettledReports, List.length_append, List.length_map, List.length_take,
      Config.reportEvents]
    omega
  · simp only [hreports, hbuilt, drawItems, State.withCommands_reports, State.withQueue_reports,
      State.withReports_reports, hsettledReports, List.length_append, List.length_map, List.length_take,
      Config.reportResponses]
    omega
  · simp only [hreports, hbuilt, drawItems, State.withCommands_reports, State.withQueue_reports,
      State.withReports_reports, hsettledReports, List.mem_append, List.mem_map, List.mem_filter]
    rintro _ (⟨item, ⟨-, hretained⟩, rfl⟩ | ⟨record, -, rfl⟩)
    · simp only [SentEvent.isRetained, Config.mostSendings, decide_eq_true_eq] at hretained
      exact ⟨Nat.le_add_left _ _, hretained⟩
    · exact ⟨le_rfl, by simp⟩
  · simp only [hreports, hbuilt, drawItems, State.withCommands_reports, State.withQueue_reports,
      State.withReports_reports, hsettledReports, hsettledCommands, List.mem_append, List.mem_map, List.mem_filter]
    rintro _ (⟨item, ⟨hitem, hretained⟩, rfl⟩ | ⟨response, hresponse, rfl⟩)
    · simp only [SentResponse.isRetained, Config.mostSendings, decide_eq_true_eq] at hretained
      exact ⟨Nat.le_add_left _ _, hretained, (hsentResponses _ hitem).2.2⟩
    · exact ⟨le_rfl, by simp, hdata _ (List.mem_of_mem_take hresponse)⟩
  · simp only [hcommands, hbuiltCommands, drawItems, State.withCommands_commands, hsettledCommands]
    exact fun r hr => hdata r (List.mem_of_mem_drop hr)

theorem takeOpen_withinCapacities (o : OpenBody) {s : State} (hs : s.withinCapacities) (hrunning : s.pins.phase = .running) :
    (takeOpen o s).withinCapacities := by
  refine takeOpen_kept o s hs hrunning (fun u acks hu => ?_)
    (fun u p d hu => hu.of_same (post_runsOn p d u) le_rfl rfl rfl (.refl _))
    (fun u f hu => hu.of_same (.refl _) le_rfl rfl rfl (.refl _)) (fun u e hu _ _ => endCycle_withinCapacities e hu)
    (fun u n hu _ => hu.of_same (resume_runsOn n u) (by simp) (by simp) (by simp) (by simpa using .refl _))
    fun u n hu _ => hu.of_same (startCycle_runsOn n u) (by simp) (by simp) (by simp) (startCycle_answers n u)
  obtain ⟨hrecords, hplaces, -, -, -, -, hdata⟩ := id hu
  unfold applyAcks
  split_ifs
  · exact ⟨hrecords, hplaces, by simp, by simp, by simp, by simp, hdata⟩
  · exact hu

theorem takeMgmt_withinCapacities (body : List Byte) {s : State} (hs : s.withinCapacities) :
    (takeMgmt body s).withinCapacities := by
  unfold takeMgmt
  split
  · split_ifs <;> exact hs.of_same (.refl _) le_rfl rfl rfl (.refl _)
  · exact hs.of_same (.refl _) le_rfl rfl rfl (.refl _)

theorem handleWaiting_withinCapacities {s : State} (hs : s.withinCapacities) (hrunning : s.pins.phase = .running) :
    (handleWaiting s).withinCapacities :=
  handleWaiting_kept (fun _ _ hu hl => hu.of_same (.refl _) hl rfl rfl (.refl _))
    (fun _ o hu hphase _ => takeOpen_withinCapacities o hu hphase)
    (fun _ hu => hu.of_same (.refl _) le_rfl rfl rfl (.refl _)) (fun _ body hu _ => takeMgmt_withinCapacities body hu)
    s hs hrunning

theorem enterOutbound_withinCapacities (run : Run) (handled : Bool) {s : State} (hs : s.withinCapacities) :
    (enterOutbound run handled s).1.withinCapacities := by
  obtain ⟨hrecords, -, hothers⟩ := id hs
  unfold enterOutbound
  dsimp only
  split_ifs with hplace
  · refine ⟨hrecords, ?_, hothers⟩
    simpa [Config.outboundPlaces] using hplace
  · exact hs.of_same (.refl _) le_rfl rfl rfl (.refl _)

@[simp] theorem judgeRun_outbound (outbound : Bool) (run : Run) (s : State) :
    (judgeRun outbound run s).frames.outbound = s.frames.outbound := by
  unfold judgeRun
  split_ifs <;> rfl

@[simp] theorem admitInbound_outbound (bytes : List Byte) (s : State) :
    (admitInbound bytes s).frames.outbound = s.frames.outbound := by
  unfold admitInbound
  dsimp only
  split_ifs <;> rfl

theorem departInbound_outbound (p : FramePath) : (departInbound p).outbound = p.outbound := by
  unfold departInbound
  split <;> rfl

theorem departOutbound_length (p : FramePath) : (departOutbound p).outbound.length ≤ p.outbound.length := by
  unfold departOutbound
  split
  · exact le_rfl
  · split_ifs <;> simp [*]

/-- Settles O51: each operation adds within the capacities what it adds. -/
theorem capacitiesKept : Obligations.CapacitiesKept := by
  have hsame : ∀ {s t : State}, s.withinCapacities → t.queue = s.queue → t.frames.outbound = s.frames.outbound →
      t.reports = s.reports → t.commands.responses = s.commands.responses → t.withinCapacities :=
    fun hs hqueue hframes hreports hcommands => hs.of_same (hqueue ▸ .refl _) (hframes ▸ le_rfl) (hreports ▸ rfl)
      (hreports ▸ rfl) fun r hr => .inl (hcommands ▸ hr)
  have hrun : ∀ {s t : State}, s.withinCapacities → s.queue.runsOn t.queue → t.frames.outbound = s.frames.outbound →
      t.reports = s.reports → s.commands.answersWithin t.commands → t.withinCapacities :=
    fun hs hqueue hframes hreports hcommands => hs.of_same hqueue (hframes ▸ le_rfl) (hreports ▸ rfl)
      (hreports ▸ rfl) hcommands
  have hcleared : ∀ s straps phase, (((leaveReset straps s).withPins phase).withinCapacities) := fun s straps phase =>
    withinCapacities_of_empty rfl (Nat.zero_le _) rfl (by simp [leaveReset, State.reset, CommandUnit.initial])
  have hrequest : ∀ {s t : State}, s.withinCapacities → s.queue = t.queue → t.frames = s.frames →
      t.reports = s.reports → s.commands.answersWithin t.commands → t.withinCapacities :=
    fun hs hqueue hframes hreports hcommands => hrun hs (hqueue ▸ .refl _) (hframes ▸ rfl) hreports hcommands
  exact keptByStep_of (fun s l hs => hsame hs rfl rfl rfl rfl) (fun s p _ _ hs => hsame hs rfl rfl rfl rfl)
    (fun s hs => hsame hs rfl rfl rfl rfl) <| kept_by_exec
    (hPins := fun s p _ _ hs => hsame hs rfl rfl rfl rfl)
    (hEnter := fun s phase _ hs => hs.of_same (.refl _) (Nat.zero_le _) rfl rfl (.refl _))
    (hLeave := fun s straps _ => hcleared s straps (s.pins.afterReset straps))
    (hHeld := fun s straps _ => hcleared s straps _)
    (hInitialised := fun s hs _ => hsame hs rfl rfl rfl rfl)
    (hCp := fun s run hs hawake => receiveCp_kept (law := State.withinCapacities) run s hs hawake
      (fun h => hsame h (by simp) (by simp) (by simp) (by simp))
      (fun _ handled hu => enterOutbound_withinCapacities run handled hu) fun _ hu => handleWaiting_withinCapacities hu)
    (hSp := fun s run hs _ => receiveSp_kept (law := State.withinCapacities) run s hs
      (fun h => hsame h (by simp) (by simp) (by simp) (by simp))
      (fun u bytes hu => hsame hu (by simp) (by simp) (by simp) (by simp))
      (fun u address body hu _ _ => hrun hu (takeSample_runsOn address body u) (by simp) (by simp)
        (by simpa using CommandUnit.answersWithin.refl u.commands))
      (fun u hu => hsame hu rfl rfl rfl rfl) fun u n hu _ => by
        unfold takeClose
        split_ifs
        · exact endCycle_withinCapacities _ hu
        · exact hrun hu (post_runsOn _ _ _) rfl rfl (.refl _))
    (hSentCp := fun s hs => hsame hs rfl (departInbound_outbound _) rfl rfl)
    (hSentSp := fun s hs => hs.of_same (.refl _) (departOutbound_length _) rfl rfl (.refl _))
    (hRelease := fun s hs => handleWaiting_withinCapacities hs)
    (hDeadline := fun s hs _ _ => endCycle_withinCapacities _ (hsame hs rfl rfl rfl rfl))
    (hStall := fun s hs _ _ => hrun hs (stall_runsOn s) (by simp) (by simp)
      (by simpa using CommandUnit.answersWithin.refl s.commands))
    (hEdge := fun s hs => hrun hs (qualifyEdge_runsOn s) (by simp) (by simp)
      (by simpa using CommandUnit.answersWithin.refl s.commands))
    (hRefuse := fun s q reason hs _ _ => hrequest hs rfl rfl rfl (refuse_answers q s reason))
    (hReadEntry := fun s q hs _ => hrequest hs (by simp) (by simp) (by simp) (runReadEntry_answers q s))
    (hWriteShadow := fun s q hs _ => hrequest hs (by simp) (by simp) (by simp) (runWriteShadow_answers q s))
    (hSyncShadow := fun s q hs _ => hrequest hs (by simp) (by simp) (by simp) (runSyncShadow_answers q s))
    (hCommit := fun s q hs _ => hrequest hs (by simp) (by simp) (by simp) (runCommit_answers q s))
    (hAbortCommit := fun s q hs _ => hrequest hs (by simp) (by simp) (by simp) (runAbortCommit_answers q s))
    (hSetMode := fun s q hs _ => hrequest hs (by simp) (by simp) (by simp) (runSetMode_answers q s))
    (hAckEvent := fun s q hs _ => hrun hs (runAckEvent_runsOn q s) (by simp) (by simp) (runAckEvent_answers q s))
    (hAckChannel := fun s q hs _ => hrun hs (runAckChannel_runsOn q s) (by simp) (by simp) (runAckChannel_answers q s))
    (hReadChannel := fun s q hs _ => hrequest hs (by simp) (by simp) (by simp) (runReadChannel_answers q s))
    (hReadStatus := fun s q hs _ => hrequest hs rfl rfl rfl (done_answers q s (statusData_length s).le rfl))
    (hClearCounters := fun s q hs _ =>
      hs.of_same (runClearCounters_runsOn q s) le_rfl rfl rfl (runClearCounters_answers q s))
    (hRestart := fun s q hs _ => withinCapacities_of_empty rfl hs.2.1 rfl
      (by simp [CommandUnit.initial, restartBlocks, CommandUnit.respond, runRestart]))

end Sys2Proof.Machine
end

section
/-! PROOF. The bound of the inbound relay buffer (R185, R186): an open cycle leaves room for its own two end frames. -/

namespace Sys2Proof.Machine

/-! ## The places of the inbound relay buffer -/

/-- Every inbound frame is a forwarded frame or an end frame (R185). -/
theorem FramePath.length_inbound (p : FramePath) : p.inbound.length = p.forwardedCount + p.endCount := by
  have hcounts := List.length_eq_countP_add_countP InboundFrame.isForwarded (l := p.inbound)
  simpa [FramePath.forwardedCount, FramePath.endCount, Bool.not_eq_true, Bool.decide_eq_false] using hcounts

theorem countP_filter_forwarded (l : List InboundFrame) :
    (l.filter fun f => !f.isForwarded).countP InboundFrame.isForwarded = 0 ∧
    (l.filter fun f => !f.isForwarded).countP (fun f => !f.isForwarded) = l.countP (fun f => !f.isForwarded) := by
  constructor
  · rw [List.countP_eq_zero]
    intro f hf
    simpa using (List.mem_filter.mp hf).2
  · rw [List.countP_filter]
    simp

theorem CycleEnding.closeFrame_isForwarded (e : CycleEnding) (s : State) : (e.closeFrame s).isForwarded = false := by
  cases e <;> rfl

/-- Two end frames placed where at most five stand: the buffer has room for them and the forwarded frames left (R186). -/
theorem FramePath.placedEnd.bounds {before after : FramePath} {report close : InboundFrame}
    (hplaced : before.placedEnd after report close) (hreport : report.isForwarded = false)
    (hclose : close.isForwarded = false) (hlength : before.inbound.length ≤ 8) (hends : before.endCount ≤ 5) :
    after.inbound.length ≤ 8 ∧ after.forwardedCount ≤ before.forwardedCount ∧
      after.endCount = before.endCount + 2 := by
  obtain ⟨older, younger, hbefore, -, hafter, hremoved, -⟩ := hplaced
  obtain ⟨hnone, hkept⟩ := countP_filter_forwarded younger
  have hforwarded : after.forwardedCount + younger.countP InboundFrame.isForwarded = before.forwardedCount := by
    simp [FramePath.forwardedCount, hbefore, hafter, hnone, hreport, hclose]
  have hend : after.endCount = before.endCount + 2 := by
    simp only [FramePath.endCount, hbefore, hafter, List.countP_append, hkept]
    simp [hreport, hclose]
  have htail : before.forwardedCount ≤ before.inbound.tail.countP InboundFrame.isForwarded + 1 := by
    unfold FramePath.forwardedCount
    cases before.inbound with
    | nil => simp
    | cons f l =>
      rw [List.countP_cons, List.tail_cons]
      split_ifs <;> omega
  have hcounts := before.length_inbound
  have hcounts' := after.length_inbound
  exact ⟨by omega, by omega, hend⟩

/-! ## The bound -/

theorem State.inboundBounded.of_frames {s t : State} (hs : s.inboundBounded)
    (hinbound : t.frames.inbound = s.frames.inbound) (hlink : t.cycle.link = .opened → s.cycle.link = .opened) :
    t.inboundBounded := by
  obtain ⟨hlength, hforwarded, hends, hopened⟩ := hs
  simp only [State.inboundBounded, FramePath.forwardedCount, FramePath.endCount, hinbound]
  exact ⟨hlength, hforwarded, hends, fun h => hopened (hlink h)⟩

theorem inboundBounded_of_nil {s : State} (hinbound : s.frames.inbound = []) : s.inboundBounded := by
  simp [State.inboundBounded, FramePath.forwardedCount, FramePath.endCount, hinbound]

/-- The end of an open cycle places two end frames more, for which the bound left room (R186). -/
theorem endCycle_inbound (e : CycleEnding) {s : State} (hs : s.inboundBounded) (hopened : s.cycle.link = .opened) :
    (endCycle e s).inboundBounded ∧ (endCycle e s).frames.endCount = s.frames.endCount + 2 := by
  obtain ⟨hlength, hforwarded, -, hroom⟩ := hs
  obtain ⟨hlength', hforwarded', hends'⟩ := (endCycle_placed e s).bounds rfl (e.closeFrame_isForwarded _) hlength
    (hroom hopened)
  have hends := hroom hopened
  refine ⟨⟨hlength', hforwarded'.trans hforwarded, by omega, fun hlink => ?_⟩, hends'⟩
  simp at hlink

theorem admitInbound_inboundBounded (bytes : List Byte) {s : State} (hs : s.inboundBounded) :
    (admitInbound bytes s).inboundBounded := by
  obtain ⟨-, -, hends, hopened⟩ := id hs
  unfold admitInbound
  dsimp only
  split_ifs with hroom
  · obtain ⟨hforwarded, hplace⟩ := hroom
    simp only [Config.forwardedPlaces, Config.inboundPlaces] at hforwarded hplace
    refine ⟨by simpa using hplace, ?_, ?_, ?_⟩
    · simpa [FramePath.forwardedCount, InboundFrame.isForwarded] using hforwarded
    · simpa [FramePath.endCount, InboundFrame.isForwarded] using hends
    · simpa [FramePath.endCount, InboundFrame.isForwarded] using hopened
  · exact hs.of_frames rfl id

theorem takeOpen_frames (o : OpenBody) (s : State) :
    (takeOpen o s).frames = (overtake (applyAcks o.acks s)).frames := by
  simp [takeOpen]

/-- An OPEN is taken only while at most three end frames stand, so the end of the cycle it overtakes leaves at most five
(R185). -/
theorem takeOpen_inboundBounded (o : OpenBody) {s : State} (hs : s.inboundBounded) (hends : s.frames.endCount ≤ 3) :
    (takeOpen o s).inboundBounded := by
  have hfew : ∀ u : State, u.inboundBounded → u.frames.endCount ≤ 5 → (takeOpen o s).frames = u.frames →
      (takeOpen o s).inboundBounded := by
    rintro u ⟨hlength, hforwarded, hends, -⟩ hcount hframes
    simp only [State.inboundBounded, hframes]
    exact ⟨hlength, hforwarded, hends, fun _ => hcount⟩
  have hacked : (applyAcks o.acks s).inboundBounded := hs.of_frames (by simp) (by simp)
  by_cases hopened : s.cycle.link = .opened
  · have hover : overtake (applyAcks o.acks s) = endCycle .overtaken (countCycle
        (fun c => { c with overtaken := satInc c.overtaken }) (applyAcks o.acks s)) := if_pos (by simpa using hopened)
    obtain ⟨hbounded, hcount⟩ := endCycle_inbound .overtaken (s := countCycle
      (fun c => { c with overtaken := satInc c.overtaken }) (applyAcks o.acks s)) (hacked.of_frames rfl id)
      (by simpa [countCycle] using hopened)
    have hframes : (countCycle (fun c => { c with overtaken := satInc c.overtaken })
        (applyAcks o.acks s)).frames = s.frames := by simp
    refine hfew _ hbounded ?_ (by rw [takeOpen_frames, hover])
    rw [hcount, hframes]
    omega
  · refine hfew s hs (by omega) ?_
    rw [takeOpen_frames, overtake, if_neg (by simpa using hopened)]
    simp

theorem handleWaiting_inboundBounded {s : State} (hs : s.inboundBounded) (hrunning : s.pins.phase = .running) :
    (handleWaiting s).inboundBounded :=
  handleWaiting_kept (fun _ _ hu _ => hu.of_frames rfl id) (fun _ o hu _ hends => takeOpen_inboundBounded o hu hends)
    (fun _ hu => hu.of_frames rfl id) (fun _ _ hu _ => hu.of_frames (by simp) (by simp)) s hs hrunning

@[simp] theorem judgeRun_inbound (outbound : Bool) (run : Run) (s : State) :
    (judgeRun outbound run s).frames.inbound = s.frames.inbound := by
  unfold judgeRun
  split_ifs <;> rfl

@[simp] theorem enterOutbound_inbound (run : Run) (handled : Bool) (s : State) :
    (enterOutbound run handled s).1.frames.inbound = s.frames.inbound := by
  unfold enterOutbound
  dsimp only
  split_ifs <;> rfl

theorem departInbound_sublist (p : FramePath) : (departInbound p).inbound.Sublist p.inbound := by
  unfold departInbound
  split
  · exact List.Sublist.refl _
  · rename_i f rest hinbound
    rw [hinbound]
    exact List.sublist_cons_self f rest

theorem departOutbound_inbound (p : FramePath) : (departOutbound p).inbound = p.inbound := by
  unfold departOutbound
  split
  · rfl
  · split_ifs <;> rfl

theorem deadlineEnd_inboundBounded {s : State} (hs : s.inboundBounded) (hopened : s.cycle.link = .opened) :
    (deadlineEnd s).inboundBounded := by
  unfold deadlineEnd
  refine (endCycle_inbound .deadline (hs.of_frames (by simp) ?_) ?_).1
  · simp [countCycle, reachDeadline]
  · simpa [countCycle, reachDeadline] using hopened

theorem takeEdge_link (s : State) : (takeEdge s).cycle.link = s.cycle.link := by
  unfold takeEdge
  split
  · rfl
  · simp

theorem qualifyEdge_link (s : State) : (qualifyEdge s).cycle.link = s.cycle.link := by
  unfold qualifyEdge
  dsimp only
  split_ifs
  · rw [takeEdge_link]
    rfl
  · rfl

/-- Settles O52: five end frames at most stand while a cycle is open, so its own two find their places. -/
theorem inboundBoundKept : Obligations.InboundBoundKept := by
  have hrequest : ∀ {s t : State}, s.inboundBounded → t.frames = s.frames → t.cycle = s.cycle → t.inboundBounded :=
    fun hs hframes hcycle => hs.of_frames (hframes ▸ rfl) (hcycle ▸ id)
  exact keptByStep_of (fun s l hs => hs.of_frames rfl id) (fun s p _ _ hs => hs.of_frames rfl id)
    (fun s hs => hs.of_frames rfl id) <| kept_by_exec
    (hPins := fun s p _ _ hs => hs.of_frames rfl id)
    (hEnter := fun s phase _ _ => inboundBounded_of_nil rfl)
    (hLeave := fun s straps _ => inboundBounded_of_nil rfl)
    (hHeld := fun s straps _ => inboundBounded_of_nil rfl)
    (hInitialised := fun s hs _ => hs.of_frames rfl id)
    (hCp := fun s run hs hawake => receiveCp_kept (law := State.inboundBounded) run s hs hawake
      (fun h => h.of_frames (by simp) (by simp)) (fun _ _ hu => hu.of_frames (by simp) (by simp))
      fun _ hu => handleWaiting_inboundBounded hu)
    (hSp := fun s run hs _ => receiveSp_kept (law := State.inboundBounded) run s hs
      (fun h => h.of_frames (by simp) (by simp)) (fun _ bytes hu => admitInbound_inboundBounded bytes hu)
      (fun u address body hu _ _ => hrequest hu (by simp) (by simp)) (fun u hu => hu.of_frames rfl id)
      fun u n hu _ => by
        unfold takeClose
        split_ifs with hopened
        · exact (endCycle_inbound _ hu hopened.1).1
        · exact hu.of_frames rfl id)
    (hSentCp := fun s hs => by
      obtain ⟨hlength, hforwarded, hends, hopened⟩ := hs
      have hsub := departInbound_sublist s.frames
      exact ⟨hsub.length_le.trans hlength, hsub.countP_le.trans hforwarded, hsub.countP_le.trans hends,
        fun hlink => hsub.countP_le.trans (hopened hlink)⟩)
    (hSentSp := fun s hs => hs.of_frames (departOutbound_inbound _) id)
    (hRelease := fun s hs => handleWaiting_inboundBounded hs)
    (hDeadline := fun s hs _ hopened => deadlineEnd_inboundBounded hs hopened)
    (hStall := fun s hs _ _ => hs.of_frames (by simp) (by simp [stall_cycle]))
    (hEdge := fun s hs => hs.of_frames (by simp) (by simp [qualifyEdge_link]))
    (hRefuse := fun s q reason hs _ _ => hrequest hs rfl rfl)
    (hReadEntry := fun s q hs _ => hrequest hs (by simp) (by simp))
    (hWriteShadow := fun s q hs _ => hrequest hs (by simp) (by simp))
    (hSyncShadow := fun s q hs _ => hrequest hs (by simp) (by simp))
    (hCommit := fun s q hs _ => hrequest hs (by simp) (by simp))
    (hAbortCommit := fun s q hs _ => hrequest hs (by simp) (by simp))
    (hSetMode := fun s q hs _ => hrequest hs (by simp) (by simp))
    (hAckEvent := fun s q hs _ => hrequest hs (by simp) (by simp))
    (hAckChannel := fun s q hs _ => hrequest hs (by simp) (by simp))
    (hReadChannel := fun s q hs _ => hrequest hs (by simp) (by simp))
    (hReadStatus := fun s q hs _ => hrequest hs rfl rfl)
    (hClearCounters := fun s q hs _ => hs.of_frames rfl id)
    (hRestart := fun s q hs _ => hs.of_frames rfl (by simp [runRestart, restartBlocks, CycleTracker.initial]))

end Sys2Proof.Machine
end

section
/-! PROOF. Steps and commands in general: every command completes and keeps the queue behind it, the laws stand after reset,
and who changes the configuration. -/

namespace Sys2Proof.Machine

/-- Settles O1: a step on a queue that is not empty. -/
theorem stepTakesFront : Obligations.StepTakesFront := fun _ _ _ => rfl

/-! ## Every command completes (log 19) -/

/-- What holds of a state, of every refusal in it, and of a request carried out in it, holds of the execution of a request. -/
theorem executeAs_of {P : State → Prop} {kind : Option RequestKind} {run : Request → State → State} {s : State}
    (hs : P s) (hrefuse : ∀ q reason, P (refuse q reason s)) (hrun : ∀ q, P (run q s)) : P (executeAs kind run s) := by
  rcases executeAs_cases kind run s with hsame | ⟨q, -, -, -, ⟨hran, -⟩ | hrefused⟩
  · rwa [hsame]
  · rw [hran]
    exact hrun q
  · rw [hrefused]
    exact hrefuse q _

theorem executeAs_pending {kind : Option RequestKind} {run : Request → State → State} {s : State}
    (hrun : ∀ q, (run q s).pending = s.pending) : (executeAs kind run s).pending = s.pending :=
  executeAs_of (P := fun u => u.pending = s.pending) rfl (fun _ _ => rfl) hrun

theorem ite_pending {p : Prop} [Decidable p] {s t u : State} (ht : t.pending = s.pending) (hu : u.pending = s.pending) :
    (if p then t else u).pending = s.pending := by
  split_ifs <;> assumption

/-- Settles O2: each command's effect is a state, and no operation touches the waiting commands. -/
theorem commandsCompleteAndKeepQueue : Obligations.CommandsCompleteAndKeepQueue := by
  intro c s
  cases c <;> refine ⟨_, rfl, ?_⟩
  case powerOn => exact ite_pending rfl (ite_pending rfl rfl)
  case resetEntry =>
    split
    · rfl
    · rfl
    · exact ite_pending rfl rfl
  case resetRelease => exact ite_pending rfl rfl
  case initialisationEnd => exact ite_pending rfl rfl
  case frameReceivedCp => exact ite_pending (by simp) rfl
  case frameReceivedSp => exact ite_pending (by simp) rfl
  case frameSentCp => exact ite_pending rfl rfl
  case frameSentSp => exact ite_pending rfl rfl
  case openHoldRelease => exact ite_pending (by simp) rfl
  case closeDeadlineExpiry => exact ite_pending (by simp) rfl
  case periodMaximumExpiry => exact ite_pending (by simp) rfl
  case captureEdge => exact ite_pending (by simp) rfl
  case captureLineChange => exact ite_pending (by simp) rfl
  case supplyOutOfLimits => rfl
  case readEntry => exact executeAs_pending (by simp)
  case writeShadow => exact executeAs_pending (by simp)
  case syncShadow => exact executeAs_pending (by simp)
  case commit => exact executeAs_pending (by simp)
  case abortCommit => exact executeAs_pending (by simp)
  case setMode => exact executeAs_pending (by simp)
  case ackEvent => exact executeAs_pending (by simp)
  case ackChannel => exact executeAs_pending (by simp)
  case readChannel => exact executeAs_pending (by simp)
  case readStatus => exact executeAs_pending (by simp)
  case clearCounters => exact executeAs_pending (by simp)
  case restart => exact executeAs_pending (by simp)
  case unknownRequest => exact executeAs_pending (by simp)

/-! ## The state after reset -/

/-- Settles O59: each law holds of what leaving a reset leaves. -/
theorem resetMeetsTheLaws : Obligations.ResetMeetsTheLaws := by
  have hleft : ∀ {law : State → Prop}, KeptByOperations law → law State.reset := fun k => k.leave State.reset 0
  obtain ⟨hconfig, hentries⟩ := hleft entriesLawful_keptByEngines.keptByOperations
  obtain ⟨-, hhealth, hcounts⟩ := hleft countsLawful_keptByEngines.keptByOperations
  exact ⟨hleft linesObeyLaws_keptByOperations, hleft obeysCreditLaw_keptByOperations,
    withinCapacities_of_empty rfl (Nat.zero_le _) rfl (by simp [State.reset, CommandUnit.initial]),
    inboundBounded_of_nil rfl, hconfig, hhealth, hcounts, hentries, hleft linkCoherent_keptByOperations,
    hleft listensOnly_keptByOperations⟩

/-! ## Who changes the configuration (R131, R139, R145, R150) -/

/-- Two configurations with the same banks, roles, generation and mode. -/
def ConfigController.sameRoles (c d : ConfigController) : Prop :=
  d.bankA = c.bankA ∧ d.bankB = c.bankB ∧ d.active = c.active ∧ d.generation = c.generation ∧ d.mode = c.mode

/-- What the taking of OPENs can do to a configuration: the pending commit swaps the banks' roles and raises the generation
once, the pending mode change acts once, and neither is pending behind it (R84). -/
def ConfigController.startsCycles (c d : ConfigController) : Prop :=
  d.bankA = c.bankA ∧ d.bankB = c.bankB ∧
  (d.active = c.active ∧ d.generation = c.generation ∧ d.pendingCommit = c.pendingCommit ∨
    c.pendingCommit.isSome = true ∧ d.active = c.active.other ∧ d.generation = c.generation + 1 ∧
      d.pendingCommit = none) ∧
  (d.mode = c.mode ∧ d.pendingMode = c.pendingMode ∨ c.pendingMode.isSome = true ∧ d.pendingMode = none)

theorem ConfigController.startsCycles.refl (c : ConfigController) : c.startsCycles c :=
  ⟨rfl, rfl, .inl ⟨rfl, rfl, rfl⟩, .inl ⟨rfl, rfl⟩⟩

theorem ConfigController.startsCycles.trans {c d e : ConfigController} (hcd : c.startsCycles d) (hde : d.startsCycles e) :
    c.startsCycles e := by
  obtain ⟨hbankA, hbankB, hswap, hmode⟩ := hcd
  obtain ⟨hbankA', hbankB', hswap', hmode'⟩ := hde
  refine ⟨hbankA'.trans hbankA, hbankB'.trans hbankB, ?_, ?_⟩
  · rcases hswap with ⟨hactive, hgeneration, hpending⟩ | ⟨hsome, hactive, hgeneration, hnone⟩
    · rwa [hactive, hgeneration, hpending] at hswap'
    · rcases hswap' with ⟨hactive', hgeneration', hpending'⟩ | ⟨hsome', -⟩
      · exact .inr ⟨hsome, hactive'.trans hactive, hgeneration'.trans hgeneration, hpending'.trans hnone⟩
      · simp [hnone] at hsome'
  · rcases hmode with ⟨hsame, hpending⟩ | ⟨hsome, hnone⟩
    · rwa [hsame, hpending] at hmode'
    · rcases hmode' with ⟨-, hpending'⟩ | ⟨hsome', -⟩
      · exact .inr ⟨hsome, hpending'.trans hnone⟩
      · simp [hnone] at hsome'

theorem swapBanks_startsCycles (s : State) : s.config.startsCycles (swapBanks s).config := by
  cases hpending : s.config.pendingCommit with
  | none => rw [swapBanks_none hpending]; exact .refl _
  | some tag =>
    rw [swapBanks_config hpending]
    exact ⟨rfl, rfl, .inr ⟨by simp [hpending], rfl, rfl, rfl⟩, .inl ⟨rfl, rfl⟩⟩

theorem applyMode_startsCycles (s : State) : s.config.startsCycles (applyMode s).config := by
  rw [applyMode_config]
  refine ⟨rfl, rfl, .inl ⟨rfl, rfl, rfl⟩, ?_⟩
  cases hpending : s.config.pendingMode with
  | none => exact .inl ⟨by simp [State.modeToBe, hpending], rfl⟩
  | some change => exact .inr ⟨rfl, rfl⟩

theorem takeOpen_startsCycles (o : OpenBody) (s : State) : s.config.startsCycles (takeOpen o s).config := by
  have hstart : ∀ u : State, u.config = s.config → s.config.startsCycles (startCycle o.cycle u).config := by
    intro u hu
    obtain ⟨-, -, hconfig, -⟩ := startCycle_values o.cycle u
    rw [hconfig, ← hu]
    have hclear : (clearIndications u).config = u.config := by simp
    rw [← hclear]
    exact (swapBanks_startsCycles _).trans (applyMode_startsCycles _)
  exact hstart _ (by simp)

theorem handleWaiting_startsCycles (s : State) (hrunning : s.pins.phase = .running) :
    s.config.startsCycles (handleWaiting s).config :=
  handleWaiting_kept (law := fun u => s.config.startsCycles u.config) (fun _ _ hu _ => hu)
    (fun u o hu _ _ => hu.trans (takeOpen_startsCycles o u)) (fun _ hu => hu) (fun _ _ hu _ => by simpa using hu)
    s (.refl _) hrunning

theorem receiveCp_startsCycles (run : Run) (s : State) (hawake : s.isAwake = true) :
    s.config.startsCycles (receiveCp run s).config :=
  receiveCp_kept (law := fun u => s.config.startsCycles u.config) run s (.refl _) hawake (fun h => by simpa using h)
    (fun _ _ hu => by simpa using hu) fun u hu hphase => hu.trans (handleWaiting_startsCycles u hphase)

theorem qualifyEdge_strap (s : State) : (qualifyEdge s).pins.strap = s.pins.strap := by
  unfold qualifyEdge
  dsimp only
  split_ifs <;> simp

theorem findCapture_strap (high : Bool) (s : State) : (findCapture high s).pins.strap = s.pins.strap := by
  rcases findCapture_cases high s with ⟨p, -, hstrap, hpins⟩ | hedge
  · rw [hpins]
    exact hstrap
  · rw [hedge, qualifyEdge_strap]

/-- What O60 says of a command and the configurations and strap addresses before and behind it. -/
def State.changesConfigurationOnlySo (c : Instr) (s t : State) : Prop :=
  let isOpen := (∃ run, c = .frameReceivedCp run) ∨ c = .openHoldRelease
  (t.config.bankA ≠ s.config.bankA ∨ t.config.bankB ≠ s.config.bankB →
    (c = .writeShadow ∨ c = .syncShadow) ∧ s.config.pendingCommit = none ∧ t.activeBank = s.activeBank) ∧
  (t.config.active ≠ s.config.active ∨ t.config.generation ≠ s.config.generation →
    isOpen ∧ s.config.pendingCommit.isSome = true ∧ t.config.active = s.config.active.other ∧
      t.config.generation = s.config.generation + 1) ∧
  (t.config.mode ≠ s.config.mode →
    isOpen ∧ s.config.pendingMode.isSome = true ∨ c = .restart ∧ t.config.mode = .standby) ∧
  t.pins.strap = s.pins.strap

section
variable {c : Instr} {s t : State}

theorem changesConfigurationOnlySo_of_same (hroles : s.config.sameRoles t.config) (hstrap : t.pins.strap = s.pins.strap) :
    s.changesConfigurationOnlySo c t := by
  obtain ⟨hbankA, hbankB, hactive, hgeneration, hmode⟩ := hroles
  exact ⟨fun h => absurd h (by simp [hbankA, hbankB]), fun h => absurd h (by simp [hactive, hgeneration]),
    fun h => absurd hmode h, hstrap⟩

theorem changesConfigurationOnlySo_of_config (hconfig : t.config = s.config) (hpins : t.pins.strap = s.pins.strap) :
    s.changesConfigurationOnlySo c t :=
  changesConfigurationOnlySo_of_same (by rw [hconfig]; exact ⟨rfl, rfl, rfl, rfl, rfl⟩) hpins

/-- The taking of OPENs is the one way to a swap and to a mode change, the pending ones. -/
theorem changesConfigurationOnlySo_of_open (hopen : (∃ run, c = .frameReceivedCp run) ∨ c = .openHoldRelease)
    (hstarts : s.config.startsCycles t.config) (hpins : t.pins = s.pins) : s.changesConfigurationOnlySo c t := by
  obtain ⟨hbankA, hbankB, hswap, hmode⟩ := hstarts
  refine ⟨fun h => absurd h (by simp [hbankA, hbankB]), fun h => ?_, fun h => ?_, by rw [hpins]⟩
  · rcases hswap with ⟨hactive, hgeneration, -⟩ | ⟨hsome, hactive, hgeneration, -⟩
    · exact absurd h (by simp [hactive, hgeneration])
    · exact ⟨hopen, hsome, hactive, hgeneration⟩
  · rcases hmode with ⟨hsame, -⟩ | ⟨hsome, -⟩
    · exact absurd hsame h
    · exact .inl ⟨hopen, hsome⟩

/-- A write of the shadow bank, made only while no commit is pending, leaves the roles and the active bank. -/
theorem changesConfigurationOnlySo_of_write (hwrite : c = .writeShadow ∨ c = .syncShadow)
    (hnone : s.config.pendingCommit = none) (q : Request) (b : Bank) :
    s.changesConfigurationOnlySo c (done q [] (s.withShadowBank b)) := by
  refine ⟨fun _ => ⟨hwrite, hnone, by simp⟩, fun h => absurd h (by simp), fun h => absurd h (by simp), by simp⟩

end

theorem runWriteShadow_configuration (q : Request) (s : State) :
    s.changesConfigurationOnlySo .writeShadow (runWriteShadow q s) := by
  have hrefused : ∀ reason, s.changesConfigurationOnlySo .writeShadow (refuse q reason s) :=
    fun _ => changesConfigurationOnlySo_of_config rfl rfl
  unfold runWriteShadow
  split
  · split
    · exact hrefused _
    · split_ifs with hsize hpending
      · exact hrefused _
      · exact hrefused _
      · split
        · exact changesConfigurationOnlySo_of_write (.inl rfl) (by simpa using hpending) q _
        · exact hrefused _
  · exact hrefused _

theorem runSyncShadow_configuration (q : Request) (s : State) :
    s.changesConfigurationOnlySo .syncShadow (runSyncShadow q s) := by
  unfold runSyncShadow
  split_ifs with hpending
  · exact changesConfigurationOnlySo_of_config rfl rfl
  · exact changesConfigurationOnlySo_of_write (.inr rfl) (by simpa using hpending) q _

theorem runCommit_sameRoles (q : Request) (s : State) : s.config.sameRoles (runCommit q s).config := by
  unfold runCommit
  split_ifs
  · exact ⟨rfl, rfl, rfl, rfl, rfl⟩
  · split <;> exact ⟨rfl, rfl, rfl, rfl, rfl⟩

theorem runAbortCommit_sameRoles (q : Request) (s : State) : s.config.sameRoles (runAbortCommit q s).config := by
  unfold runAbortCommit
  split
  · split_ifs <;> exact ⟨rfl, rfl, rfl, rfl, rfl⟩
  · exact ⟨rfl, rfl, rfl, rfl, rfl⟩

theorem runSetMode_sameRoles (q : Request) (s : State) : s.config.sameRoles (runSetMode q s).config := by
  unfold runSetMode
  split
  · split
    · exact ⟨rfl, rfl, rfl, rfl, rfl⟩
    · split_ifs <;> exact ⟨rfl, rfl, rfl, rfl, rfl⟩
  · exact ⟨rfl, rfl, rfl, rfl, rfl⟩

theorem runRestart_configuration (q : Request) (s : State) : s.changesConfigurationOnlySo .restart (runRestart q s) :=
  ⟨fun h => absurd h (by simp [runRestart, restartBlocks]), fun h => absurd h (by simp [runRestart, restartBlocks]),
    fun _ => .inr ⟨rfl, rfl⟩, rfl⟩

theorem executeAs_configuration {c : Instr} {kind : Option RequestKind} {run : Request → State → State} {s : State}
    (hrun : ∀ q, s.changesConfigurationOnlySo c (run q s)) : s.changesConfigurationOnlySo c (executeAs kind run s) :=
  executeAs_of (changesConfigurationOnlySo_of_config rfl rfl)
    (fun _ _ => changesConfigurationOnlySo_of_config rfl rfl) hrun

theorem ite_configuration {c : Instr} {p : Prop} [Decidable p] {s t : State}
    (ht : p → s.changesConfigurationOnlySo c t) : s.changesConfigurationOnlySo c (if p then t else s) := by
  split_ifs with h
  · exact ht h
  · exact changesConfigurationOnlySo_of_config rfl rfl

/-- Settles O60: the taking of OPENs, the two writes of the shadow bank and RESTART are the commands that change it. -/
theorem banksAndModeChangeOnlySo : Obligations.BanksAndModeChangeOnlySo := by
  intro c s t hexec hreset
  change s.changesConfigurationOnlySo c t
  have hsame : ∀ {u : State}, u.config = s.config → u.pins.strap = s.pins.strap → s.changesConfigurationOnlySo c u :=
    changesConfigurationOnlySo_of_config
  have hroles : ∀ {u : State}, s.config.sameRoles u.config → u.pins.strap = s.pins.strap →
      s.changesConfigurationOnlySo c u := changesConfigurationOnlySo_of_same
  cases c <;> simp only [isResetCommand, Bool.true_eq_false] at hreset <;> cases hexec
  case initialisationEnd => exact ite_configuration fun _ => hsame rfl rfl
  case frameReceivedCp run =>
    exact ite_configuration fun h => changesConfigurationOnlySo_of_open (.inl ⟨run, rfl⟩)
      (receiveCp_startsCycles run s (State.receives_awake h)) (by simp)
  case frameReceivedSp => exact ite_configuration fun _ => hsame (by simp) (by simp)
  case frameSentCp => exact ite_configuration fun _ => hsame rfl rfl
  case frameSentSp => exact ite_configuration fun _ => hsame rfl rfl
  case openHoldRelease =>
    exact ite_configuration fun h => changesConfigurationOnlySo_of_open (.inr rfl) (handleWaiting_startsCycles s h.1)
      (by simp)
  case closeDeadlineExpiry => exact ite_configuration fun _ => hsame (by simp) (by simp)
  case periodMaximumExpiry => exact ite_configuration fun _ => hsame (by simp) (by simp)
  case captureEdge => exact ite_configuration fun _ => hsame (by simp) (qualifyEdge_strap s)
  case captureLineChange high =>
    dsimp only
    split_ifs
    · exact hsame (by simp) (findCapture_strap high s)
    · exact hsame rfl rfl
  case readEntry => exact executeAs_configuration fun q => hsame (by simp) (by simp)
  case writeShadow => exact executeAs_configuration fun q => runWriteShadow_configuration q s
  case syncShadow => exact executeAs_configuration fun q => runSyncShadow_configuration q s
  case commit => exact executeAs_configuration fun q => hroles (runCommit_sameRoles q s) (by simp)
  case abortCommit => exact executeAs_configuration fun q => hroles (runAbortCommit_sameRoles q s) (by simp)
  case setMode => exact executeAs_configuration fun q => hroles (runSetMode_sameRoles q s) (by simp)
  case ackEvent => exact executeAs_configuration fun q => hsame (by simp) (by simp)
  case ackChannel => exact executeAs_configuration fun q => hsame (by simp) (by simp)
  case readChannel => exact executeAs_configuration fun q => hsame (by simp) (by simp)
  case readStatus => exact executeAs_configuration fun q => hsame (by simp) (by simp)
  case clearCounters => exact executeAs_configuration fun q => hsame (by simp) (by simp)
  case restart => exact executeAs_configuration fun q => runRestart_configuration q s
  case unknownRequest => exact executeAs_configuration fun q => hsame (by simp) (by simp)

end Sys2Proof.Machine
end

section
/-! PROOF. The resets and the initialisation period (R190, R193, R194). -/

namespace Sys2Proof.Machine

/-! ## Leaving and entering a reset -/

theorem exec_powerOn (straps : Strap) (n : Nat) (s : State) : exec (.powerOn straps n) s = .next
    (if n < 1000 then s
     else if 10 ≤ s.pins.resetLow then
       (leaveReset straps s).withPins { (leaveReset straps s).pins with phase := .pinReset }
     else leaveReset straps s) := by
  simp [exec, execPowerOn, Config.powerOnTicks, Pins.holdsReset, Config.resetLowTicks]

/-- A RESET_N that is high again counts no low tick for what leaves its reset. -/
theorem leaveReset_of_high (straps : Strap) (s : State) : leaveReset straps (s.withPins { s.pins with resetLow := 0 }) =
    { leaveReset straps s with pins := { (leaveReset straps s).pins with resetLow := 0 } } := rfl

/-- Settles O4: what `leaveReset` leaves, field by field, whichever command leaves the reset. -/
theorem leavingReset : Obligations.LeavingReset := by
  intro s straps
  refine ⟨leaveReset straps s, fun n hn hhigh => ?_, fun n hn hlow => ?_, fun n hn => ?_, fun hphase => ?_,
    fun hphase => ?_, rfl, rfl, rfl, rfl, fun i => ?_, rfl, fun i => ?_, rfl, rfl, rfl, rfl, rfl⟩
  · rw [exec_powerOn, if_neg (by omega), if_neg (by omega)]
  · rw [exec_powerOn, if_neg (by omega), if_pos hlow]
    rfl
  · rw [exec_powerOn, if_pos hn]
  · exact congrArg Host.Outcome.next (by rw [if_pos hphase, leaveReset_of_high])
  · exact congrArg Host.Outcome.next (if_neg hphase)
  · exact State.slot_of_initial rfl i
  · exact State.entry_of_initial rfl i

theorem State.isAwake_iff (s : State) : s.isAwake = true ↔ s.pins.phase = .running ∨ s.pins.phase = .initialising := by
  simp [State.isAwake]

theorem State.not_isAwake_of_reset {s : State} (hreset : s.pins.phase = .powerOnReset ∨ s.pins.phase = .pinReset) :
    s.isAwake = false ∧ s.pins.phase ≠ .running ∧ s.pins.phase ≠ .initialising := by
  rcases hreset with h | h <;> simp [State.isAwake, h]

theorem exec_resetEntry_awake {s : State} (hawake : s.isAwake = true) (n : Nat) : exec (.resetEntry n) s = .next
    (if 10 ≤ n then enterReset .pinReset (s.withPins { s.pins with resetLow := min n 10 })
     else s.withPins { s.pins with resetLow := min n 10 }) := by
  rcases s.isAwake_iff.mp hawake with h | h <;> simp [exec, execResetEntry, h, Config.resetLowTicks]

/-- A request executes in a running part alone. -/
theorem executeAs_of_not_running {kind : Option RequestKind} {run : Request → State → State} {s : State}
    (hphase : s.pins.phase ≠ .running) : executeAs kind run s = s := if_neg hphase

/-- In reset nothing but a reset command changes the part, the level of CAPTURE apart (R194). -/
theorem exec_of_reset {c : Instr} {s : State} (hreset : s.pins.phase = .powerOnReset ∨ s.pins.phase = .pinReset)
    (hc : isResetCommand c = false) (hline : ∀ high, c ≠ .captureLineChange high) : exec c s = .next s := by
  obtain ⟨hawake, hrunning, hinitialising⟩ := State.not_isAwake_of_reset hreset
  have hnotReceived : ∀ run, ¬ s.receives run = true := by simp [State.receives, hawake]
  have hasleep : ¬ s.isAwake = true := by simp [hawake]
  cases c <;> simp only [isResetCommand, Bool.true_eq_false] at hc <;> clear hc <;> refine congrArg Host.Outcome.next ?_
  case initialisationEnd => exact if_neg hinitialising
  case frameReceivedCp => exact if_neg (hnotReceived _)
  case frameReceivedSp => exact if_neg (hnotReceived _)
  case frameSentCp => exact if_neg hasleep
  case frameSentSp => exact if_neg hasleep
  case openHoldRelease => exact if_neg fun h => hrunning h.1
  case closeDeadlineExpiry => exact if_neg fun h => hrunning h.1
  case periodMaximumExpiry => exact if_neg fun h => hrunning h.1
  case captureEdge => exact if_neg hasleep
  case captureLineChange high => exact absurd rfl (hline high)
  all_goals exact executeAs_of_not_running hrunning

theorem exec_captureLineChange_of_reset {s : State} (hawake : s.isAwake = false) (high : Bool) :
    exec (.captureLineChange high) s = .next { s with pins := { s.pins with capture := high } } :=
  congrArg Host.Outcome.next (if_neg (by simp [hawake]))

/-- Settles O5: the branches of the reset commands, and the commands that find the part in reset. -/
theorem enteringReset : Obligations.EnteringReset := by
  intro s n
  refine ⟨fun hawake => ⟨fun hn => ?_, fun hn => ?_⟩, fun hphase => ?_, fun hphase => ?_, rfl, fun hreset => ?_⟩
  · rw [exec_resetEntry_awake hawake, if_pos hn, min_eq_right hn]
    rfl
  · rw [exec_resetEntry_awake hawake, if_neg (by omega), min_eq_left (by omega)]
    rfl
  · simp [exec, execResetEntry, hphase, Config.resetLowTicks, State.withPins]
  · simp [exec, execResetEntry, hphase]
  · obtain ⟨hawake, -⟩ := State.not_isAwake_of_reset hreset
    refine ⟨by simp [State.cpTx, hawake], by simp [State.spTx, hawake], ?_⟩
    intro c hc
    split
    · exact exec_captureLineChange_of_reset hawake _
    · rename_i hline
      exact exec_of_reset hreset hc hline

/-! ## The initialisation period (R190) -/

theorem exec_frameReceivedCp_early {run : Run} (hearly : run.early = true) (s : State) :
    exec (.frameReceivedCp run) s = .next s :=
  congrArg Host.Outcome.next (if_neg (by simp [State.receives, hearly]))

theorem exec_frameReceivedSp_early {run : Run} (hearly : run.early = true) (s : State) :
    exec (.frameReceivedSp run) s = .next s :=
  congrArg Host.Outcome.next (if_neg (by simp [State.receives, hearly]))

theorem exec_frameReceivedCp {run : Run} {s : State} (hawake : s.isAwake = true) (hearly : run.early = false) :
    exec (.frameReceivedCp run) s = .next (receiveCp run s) :=
  congrArg Host.Outcome.next (if_pos ((s.receives_iff run).mpr ⟨hawake, hearly⟩))

theorem exec_frameReceivedSp {run : Run} {s : State} (hawake : s.isAwake = true) (hearly : run.early = false) :
    exec (.frameReceivedSp run) s = .next (receiveSp run s) :=
  congrArg Host.Outcome.next (if_pos ((s.receives_iff run).mpr ⟨hawake, hearly⟩))

/-- A judged run moves the bad-check counter of its direction alone, when it is bad (R180). -/
theorem judgeRun_outbound_eq (run : Run) (s : State) : judgeRun true run s = s.withFrames { s.frames with
    counters := { s.frames.counters with
      badOutbound := if intactFrame run = none then satInc s.frames.counters.badOutbound
        else s.frames.counters.badOutbound } } := by
  unfold judgeRun countBadFrame
  split_ifs <;> rfl

theorem judgeRun_inbound_eq (run : Run) (s : State) : judgeRun false run s = s.withFrames { s.frames with
    counters := { s.frames.counters with
      badInbound := if intactFrame run = none then satInc s.frames.counters.badInbound
        else s.frames.counters.badInbound } } := by
  unfold judgeRun countBadFrame
  split_ifs <;> rfl

theorem receiveCp_initialising {run : Run} {s : State} (hphase : s.pins.phase = .initialising) : receiveCp run s =
    if 255 < run.bytes.length then judgeRun true run s else (enterOutbound run true (judgeRun true run s)).1 := by
  simp [receiveCp, hphase, Config.longestRun]

theorem receiveSp_initialising {run : Run} {s : State} (hphase : s.pins.phase = .initialising) : receiveSp run s =
    if 255 < run.bytes.length then judgeRun false run s else admitInbound run.bytes (judgeRun false run s) := by
  unfold receiveSp
  dsimp only [Config.longestRun]
  split_ifs with hlong hrunning
  · rfl
  · simp [hphase] at hrunning
  · split <;> rfl

/-- A frame enters the outbound relay buffer when a place is free (R184). -/
theorem enterOutbound_of_room {s : State} (hroom : s.frames.outbound.length < 4) (run : Run) (handled : Bool) :
    enterOutbound run handled s =
      (s.withFrames { s.frames with outbound := s.frames.outbound ++ [{ run, handled }] }, true) := if_pos hroom

theorem enterOutbound_of_full {s : State} (hfull : ¬ s.frames.outbound.length < 4) (run : Run) (handled : Bool) :
    enterOutbound run handled s = (s.withFrames { s.frames with
      counters := { s.frames.counters with dropsOutbound := satInc s.frames.counters.dropsOutbound } }, false) :=
  if_neg hfull

/-- A frame is admitted to the inbound relay buffer when both counts leave it a place (R185). -/
theorem admitInbound_of_room {s : State} (hroom : s.frames.forwardedCount < 6 ∧ s.frames.inbound.length < 8)
    (bytes : List Byte) : admitInbound bytes s =
      s.withFrames { s.frames with inbound := s.frames.inbound ++ [{ bytes, cls := .forwarded }] } := if_pos hroom

theorem admitInbound_of_full {s : State} (hfull : ¬ (s.frames.forwardedCount < 6 ∧ s.frames.inbound.length < 8))
    (bytes : List Byte) : admitInbound bytes s = s.withFrames { s.frames with
      counters := { s.frames.counters with dropsInbound := satInc s.frames.counters.dropsInbound } } := if_neg hfull

/-- Settles O6: both receptions judge the run and enter it, and reach no block. -/
theorem initialisationRelaysUnchanged : Obligations.InitialisationRelaysUnchanged := by
  intro s run
  refine ⟨fun hearly => ⟨exec_frameReceivedCp_early hearly s, exec_frameReceivedSp_early hearly s⟩, fun hphase =>
    ⟨congrArg Host.Outcome.next (if_pos hphase), fun hearly => ⟨?_, ?_⟩⟩⟩
  · rw [exec_frameReceivedCp (s.isAwake_iff.mpr (.inr hphase)) hearly, receiveCp_initialising hphase,
      judgeRun_outbound_eq]
    by_cases hlong : 255 < run.bytes.length
    · simp only [if_pos hlong]
      rfl
    · by_cases hroom : s.frames.outbound.length < 4
      · rw [if_neg hlong, if_neg hlong, if_pos hroom, enterOutbound_of_room]
        · rfl
        · exact hroom
      · rw [if_neg hlong, if_neg hlong, if_neg hroom, enterOutbound_of_full]
        · rfl
        · exact hroom
  · rw [exec_frameReceivedSp (s.isAwake_iff.mpr (.inr hphase)) hearly, receiveSp_initialising hphase,
      judgeRun_inbound_eq]
    by_cases hlong : 255 < run.bytes.length
    · simp only [if_pos hlong]
      rfl
    · by_cases hroom : s.frames.forwardedCount < 6 ∧ s.frames.inbound.length < 8
      · rw [if_neg hlong, if_neg hlong, if_pos hroom, admitInbound_of_room]
        · rfl
        · exact hroom
      · rw [if_neg hlong, if_neg hlong, if_neg hroom, admitInbound_of_full]
        · rfl
        · exact hroom

end Sys2Proof.Machine
end

section
/-! PROOF. Intact runs, and what passes the two relay buffers (R178 to R189). -/

namespace Sys2Proof.Machine

/-! ## Intact runs (R178, R180) -/

/-- Settles O8: the length byte splits a run's rest into the body and the check. -/
theorem intactRunsAreFrames : Obligations.IntactRunsAreFrames := by
  intro run f
  constructor
  · intro h
    unfold intactFrame at h
    split at h
    · rename_i type address length rest hbytes
      dsimp only at h
      split_ifs at h with hintact
      obtain ⟨hframing, hlength, hrest, hcheck⟩ := hintact
      obtain rfl := Option.some.inj h
      have hbody : (rest.take length.toNat).length = length.toNat := by
        rw [List.length_take]
        omega
      have hlengthByte : BitVec.ofNat 8 length.toNat = length := by simp
      refine ⟨hframing, by simpa only [hbody] using hlength, ?_⟩
      simp only [Frame.head, byteOf, hbody, hlengthByte] at hcheck ⊢
      rw [hbytes, List.append_assoc, List.cons_append, List.cons_append, List.cons_append, List.nil_append,
        List.cons_append, List.cons_append, List.cons_append, List.nil_append, ← hcheck, List.take_append_drop]
    · simp at h
  · rintro ⟨hframing, hlength, hbytes⟩
    have hlengthByte : (BitVec.ofNat 8 f.body.length).toNat = f.body.length := by
      rw [BitVec.toNat_ofNat]
      omega
    simp only [List.cons_append, List.nil_append] at hbytes
    simp only [intactFrame, hbytes, hlengthByte, List.take_left, List.drop_left, Frame.head, byteOf, Config.longestBody]
    rw [if_pos ⟨hframing, hlength, by simp [bytes16], trivial⟩]

/-- An over-long run is a bad one. -/
theorem intactFrame_of_long {run : Run} (hlong : 255 < run.bytes.length) : intactFrame run = none := by
  by_contra hne
  obtain ⟨f, hf⟩ := Option.ne_none_iff_exists'.mp hne
  obtain ⟨-, hlength, hbytes⟩ := (intactRunsAreFrames run f).mp hf
  have := congrArg List.length hbytes
  simp [bytes16] at this
  omega

/-! ## Departures (R187, R189) -/

theorem InboundFrame.wasReceived_iff (f : InboundFrame) :
    f.wasReceived = true ↔ ¬ (f.cls = .report ∨ f.cls = .closeSynthesized) := by
  cases hcls : f.cls <;> simp [InboundFrame.wasReceived, hcls]

/-- Settles O13: the head leaves, and a received one counts. -/
theorem framesDepart : Obligations.FramesDepart := by
  intro s hawake
  refine ⟨fun f rest hinbound => ?_, fun f rest houtbound hhandled => ?_⟩
  · refine congrArg Host.Outcome.next ?_
    rw [if_pos hawake]
    simp only [departInbound, hinbound, f.wasReceived_iff, ite_not]
    by_cases hown : f.cls = .report ∨ f.cls = .closeSynthesized
    · simp only [if_pos hown]
      rfl
    · simp only [if_neg hown]
      rfl
  · refine congrArg Host.Outcome.next ?_
    rw [if_pos hawake]
    simp only [departOutbound, houtbound, if_pos hhandled]
    rfl

/-! ## The handling of the outbound buffer, frame by frame (R184, R185) -/

/-- A frame that is neither an OPEN nor an MGMT frame addressed to the part, or a bad run. -/
def passesOutbound (strap : Strap) (run : Run) : Prop :=
  ∀ f, intactFrame run = some f → f.type ≠ typeOpen ∧ ¬(f.type = typeMgmt ∧ strap ≠ 0 ∧ f.address = strapByte strap)

theorem mustHold_of_passes {run : Run} {strap : Strap} (hpasses : passesOutbound strap run) (s : State) :
    mustHold run s = false := by
  unfold mustHold
  split
  · rename_i f hf
    simp [(hpasses f hf).1]
  · rfl

theorem handleOutbound_of_passes {run : Run} {s : State} (hpasses : passesOutbound s.pins.strap run) :
    handleOutbound run s = (s, true) := by
  unfold handleOutbound
  split
  · rfl
  · rename_i f hf
    obtain ⟨hopen, hpart⟩ := hpasses f hf
    rw [if_neg hopen, if_neg (by simpa [isForPart, and_assoc] using hpart)]

theorem mustHold_of_open {run : Run} {f : Frame} (hf : intactFrame run = some f) (htype : f.type = typeOpen) (s : State) :
    mustHold run s = true ↔ 4 ≤ s.frames.endCount := by
  simp only [mustHold, hf, htype, decide_true, Bool.true_and, decide_eq_true_eq, Config.openHoldLimit]
  exact Iff.rfl

theorem handleOutbound_of_open {run : Run} {f : Frame} (hf : intactFrame run = some f) (htype : f.type = typeOpen)
    (s : State) : handleOutbound run s = (handOpen f.body s, true) := by
  simp [handleOutbound, hf, htype]

/-- A management frame for the part is no OPEN. -/
theorem not_open_of_isForPart {strap : Strap} {f : Frame} (hpart : isForPart strap f = true) : f.type ≠ typeOpen := by
  simp only [isForPart, Bool.and_eq_true, decide_eq_true_eq] at hpart
  rw [hpart.1.1]
  decide

theorem handleOutbound_of_mgmt {run : Run} {f : Frame} {s : State} (hf : intactFrame run = some f)
    (hpart : isForPart s.pins.strap f = true) : handleOutbound run s = (takeMgmt f.body s, false) := by
  simp [handleOutbound, hf, not_open_of_isForPart hpart, hpart]

theorem handleInTurn_handled {before : List OutboundFrame} (hbefore : ∀ g ∈ before, g.handled = true)
    (behind : List OutboundFrame) (s : State) : handleInTurn (before ++ behind) s =
      ((handleInTurn behind s).1, before ++ (handleInTurn behind s).2) := by
  induction before with
  | nil => rfl
  | cons g before ih =>
    rw [List.cons_append, handleInTurn, if_pos (hbefore g List.mem_cons_self),
      ih fun x hx => hbefore x (List.mem_cons_of_mem _ hx)]
    rfl

theorem handleInTurn_held {run : Run} {s : State} (hheld : mustHold run s = true) (behind : List OutboundFrame) :
    handleInTurn ({ run, handled := false } :: behind) s = (s, { run, handled := false } :: behind) := by
  simp [handleInTurn, hheld]

theorem handleInTurn_free {run : Run} {s : State} (hfree : mustHold run s = false) (behind : List OutboundFrame) :
    handleInTurn ({ run, handled := false } :: behind) s =
      ((handleInTurn behind (handleOutbound run s).1).1,
        if (handleOutbound run s).2 then
          { run, handled := true } :: (handleInTurn behind (handleOutbound run s).1).2
        else (handleInTurn behind (handleOutbound run s).1).2) := by
  simp [handleInTurn, hfree]

/-- Frames that only pass are all forwarded, the blocks left as they are. -/
theorem handleInTurn_of_passes {s : State} {l : List OutboundFrame} (hpasses : ∀ g ∈ l, passesOutbound s.pins.strap g.run) :
    handleInTurn l s = (s, l.map fun g => { g with handled := true }) := by
  induction l with
  | nil => rfl
  | cons g l ih =>
    have hrest := ih fun x hx => hpasses x (List.mem_cons_of_mem _ hx)
    have hg := hpasses g List.mem_cons_self
    obtain ⟨run, handled⟩ := g
    cases handled with
    | true => simp [handleInTurn, hrest]
    | false =>
      rw [handleInTurn_free (mustHold_of_passes hg s), handleOutbound_of_passes hg, hrest]
      rfl

/-! ## A frame received at CP -/

/-- A frame handled at once: it stands behind frames that have all been handled. -/
theorem receiveCp_handled {s : State} {run : Run} (hhandles : s.handlesAtCp run) : receiveCp run s =
    handleWaiting ((judgeRun true run s).withFrames { (judgeRun true run s).frames with
      outbound := s.frames.outbound ++ [{ run, handled := false }] }) := by
  obtain ⟨hphase, -, hroom, hhandled, hshort⟩ := hhandles
  have hnone : s.holdsOpen = false := by simpa [State.holdsOpen] using hhandled
  have hentered := enterOutbound_of_room (s := judgeRun true run s) (by simpa using hroom) run false
  simp only [receiveCp, Config.longestRun, if_neg (Nat.not_lt.mpr hshort), hphase, reduceCtorEq, if_false, hentered,
    hnone, judgeRun_outbound]
  rfl

theorem exec_frameReceivedCp_handled {s : State} {run : Run} (hhandles : s.handlesAtCp run) :
    exec (.frameReceivedCp run) s = .next (handleWaiting ((judgeRun true run s).withFrames
      { (judgeRun true run s).frames with outbound := s.frames.outbound ++ [{ run, handled := false }] })) := by
  obtain ⟨hphase, hearly, -⟩ := id hhandles
  rw [exec_frameReceivedCp (s.isAwake_iff.mpr (.inl hphase)) hearly, receiveCp_handled hhandles]

theorem handleWaiting_split {s : State} {before behind : List OutboundFrame}
    (houtbound : s.frames.outbound = before ++ behind) (hbefore : ∀ g ∈ before, g.handled = true) :
    handleWaiting s = (handleInTurn behind s).1.withFrames { (handleInTurn behind s).1.frames with
      outbound := before ++ (handleInTurn behind s).2 } := by
  simp only [handleWaiting, houtbound, handleInTurn_handled hbefore]

theorem receiveCp_long {run : Run} (hlong : 255 < run.bytes.length) (s : State) :
    receiveCp run s = judgeRun true run s := by
  simp [receiveCp, Config.longestRun, hlong]

theorem receiveSp_long {run : Run} (hlong : 255 < run.bytes.length) (s : State) :
    receiveSp run s = judgeRun false run s := by
  simp [receiveSp, Config.longestRun, hlong]

theorem receiveCp_full {run : Run} {s : State} (hshort : run.bytes.length ≤ 255)
    (hfull : ¬ s.frames.outbound.length < 4) : receiveCp run s = (judgeRun true run s).withFrames
      { (judgeRun true run s).frames with counters := { (judgeRun true run s).frames.counters with
          dropsOutbound := satInc (judgeRun true run s).frames.counters.dropsOutbound } } := by
  have hentered := fun handled => enterOutbound_of_full (s := judgeRun true run s) (by simpa using hfull) run handled
  simp only [receiveCp, Config.longestRun, if_neg (Nat.not_lt.mpr hshort), hentered]
  split_ifs <;> simp_all

theorem receiveCp_behind {run : Run} {s : State} (hphase : s.pins.phase = .running) (hshort : run.bytes.length ≤ 255)
    (hroom : s.frames.outbound.length < 4) (hheld : s.holdsOpen = true) : receiveCp run s =
      (judgeRun true run s).withFrames { (judgeRun true run s).frames with
        outbound := s.frames.outbound ++ [{ run, handled := false }] } := by
  have hentered := enterOutbound_of_room (s := judgeRun true run s) (by simpa using hroom) run false
  simp [receiveCp, Config.longestRun, hshort, hphase, hentered, hheld]

/-- Settles O11: the cases of a run received at CP that reaches no block. -/
theorem outboundPassThrough : Obligations.OutboundPassThrough := by
  intro s run hearly
  refine ⟨fun hhandles hpasses => ?_, fun hphase hroom hheld hshort => ?_, fun hawake hfull hshort => ?_,
    fun hawake hlong => ⟨?_, ?_⟩⟩
  · have hall : ∀ g ∈ [({ run, handled := false } : OutboundFrame)], passesOutbound s.pins.strap g.run := by
      intro g hg
      rw [List.mem_singleton.mp hg]
      exact hpasses
    rw [exec_frameReceivedCp_handled hhandles, handleWaiting_split rfl hhandles.2.2.2.1, judgeRun_outbound_eq,
      handleInTurn_of_passes]
    · rfl
    · exact hall
  · have hopen : s.holdsOpen = true := by simpa [State.holdsOpen] using hheld
    rw [exec_frameReceivedCp (s.isAwake_iff.mpr (.inl hphase)) hearly, receiveCp_behind hphase hshort hroom hopen,
      judgeRun_outbound_eq]
    rfl
  · rw [exec_frameReceivedCp hawake hearly, receiveCp_full hshort (by omega), judgeRun_outbound_eq]
    rfl
  · rw [exec_frameReceivedCp hawake hearly, receiveCp_long hlong, judgeRun_outbound_eq,
      if_pos (intactFrame_of_long hlong)]
    rfl
  · rw [exec_frameReceivedSp hawake hearly, receiveSp_long hlong, judgeRun_inbound_eq,
      if_pos (intactFrame_of_long hlong)]
    rfl

/-! ## A frame received at SP -/

theorem intactFrame_short {run : Run} {f : Frame} (hf : intactFrame run = some f) : run.bytes.length ≤ 255 := by
  by_contra hlong
  rw [intactFrame_of_long (by omega)] at hf
  exact absurd hf (by simp)

/-- An intact run is judged without being counted. -/
theorem judgeRun_of_intact {run : Run} {f : Frame} (hf : intactFrame run = some f) (outbound : Bool) (s : State) :
    judgeRun outbound run s = s := by
  simp [judgeRun, hf]

/-- A frame received at SP in a running part is classified. -/
theorem receiveSp_intact {run : Run} {s : State} {f : Frame} (hphase : s.pins.phase = .running)
    (hf : intactFrame run = some f) : receiveSp run s = handleInbound f run.bytes s := by
  simp [receiveSp, Config.longestRun, intactFrame_short hf, hphase, hf, judgeRun_of_intact hf]

theorem receiveSp_bad {run : Run} (hbad : intactFrame run = none) (hshort : run.bytes.length ≤ 255) (s : State) :
    receiveSp run s = admitInbound run.bytes (judgeRun false run s) := by
  simp [receiveSp, Config.longestRun, hshort, hbad]

/-- Settles O12: an intact frame that is for no block, and a bad run, are admitted or dropped. -/
theorem inboundPassThrough : Obligations.InboundPassThrough := by
  intro s run hphase hearly hshort hpasses
  have hadmitted : receiveSp run s = admitInbound run.bytes (judgeRun false run s) := by
    cases hf : intactFrame run with
    | none => exact receiveSp_bad hf hshort s
    | some f =>
      obtain ⟨hclose, hsample⟩ := hpasses f hf
      rw [receiveSp_intact hphase hf, judgeRun_of_intact hf, handleInbound, if_neg (by simpa using hsample),
        if_neg hclose]
  rw [exec_frameReceivedSp (s.isAwake_iff.mpr (.inl hphase)) hearly, hadmitted, judgeRun_inbound_eq]
  refine ⟨fun hroom => ?_, fun hfull => ?_⟩
  · rw [admitInbound_of_room]
    · rfl
    · exact hroom
  · rw [admitInbound_of_full]
    · rfl
    · show ¬ (s.frames.forwardedCount < 6 ∧ s.frames.inbound.length < 8)
      omega

/-! ## The hold of an OPEN (R185) -/

theorem handleInTurn_open {run : Run} {f : Frame} {s : State} (hf : intactFrame run = some f)
    (htype : f.type = typeOpen) (hends : s.frames.endCount ≤ 3) (behind : List OutboundFrame) :
    handleInTurn ({ run, handled := false } :: behind) s =
      ((handleInTurn behind (handOpen f.body s)).1,
        { run, handled := true } :: (handleInTurn behind (handOpen f.body s)).2) := by
  have hfree : mustHold run s = false := by
    rw [← Bool.not_eq_true, mustHold_of_open hf htype]
    omega
  rw [handleInTurn_free hfree, handleOutbound_of_open hf htype]
  rfl

theorem exec_openHoldRelease {s : State} (hphase : s.pins.phase = .running) (hheld : s.holdsOpen = true) :
    exec .openHoldRelease s = .next (handleWaiting s) := congrArg Host.Outcome.next (if_pos ⟨hphase, hheld⟩)

/-- Settles O14: the OPEN is the head of the frames not handled, held or handed by the count of end frames. -/
theorem openHeldAndReleased : Obligations.OpenHeldAndReleased := by
  intro s run f hphase hf htype
  refine ⟨fun hhandles hends => ?_, fun hhandles hends hmalformed => ?_, fun before behind houtbound hbefore =>
    ⟨fun hends => ⟨?_, fun hpasses => ?_⟩, fun hends => ?_⟩⟩
  · rw [exec_frameReceivedCp_handled hhandles, handleWaiting_split rfl hhandles.2.2.2.1, judgeRun_of_intact hf,
      handleInTurn_held]
    · rfl
    · exact (mustHold_of_open hf htype _).mpr hends
  · rw [exec_frameReceivedCp_handled hhandles, handleWaiting_split rfl hhandles.2.2.2.1, judgeRun_of_intact hf,
      handleInTurn_open hf htype, handOpen, hmalformed]
    · rfl
    · exact hends
  · have hheld : s.holdsOpen = true := by simp [State.holdsOpen, houtbound]
    rw [exec_openHoldRelease hphase hheld, handleWaiting_split houtbound hbefore, handleInTurn_open hf htype hends]
    rfl
  · exact handleInTurn_of_passes (by simpa [passesOutbound] using hpasses)
  · have hheld : s.holdsOpen = true := by simp [State.holdsOpen, houtbound]
    rw [exec_openHoldRelease hphase hheld, handleWaiting_split houtbound hbefore,
      handleInTurn_held ((mustHold_of_open hf htype s).mpr hends), ← houtbound]
    rfl

end Sys2Proof.Machine
end

section
/-! PROOF. The taking of an OPEN reads nothing of the outbound relay buffer, so an OPEN handled at its reception is taken by
the state that received it (R79 to R84). -/

namespace Sys2Proof.Machine

/-- The state with the frames of the outbound relay buffer replaced. -/
def State.withOutbound (s : State) (l : List OutboundFrame) : State := s.withFrames { s.frames with outbound := l }

@[simp] theorem State.withOutbound_keeps (s : State) (l : List OutboundFrame) :
    (s.withOutbound l).cycle = s.cycle ∧ (s.withOutbound l).channels = s.channels ∧
    (s.withOutbound l).matcher = s.matcher ∧ (s.withOutbound l).queue = s.queue ∧
    (s.withOutbound l).reports = s.reports ∧ (s.withOutbound l).commands = s.commands ∧
    (s.withOutbound l).config = s.config ∧ (s.withOutbound l).lines = s.lines ∧
    (s.withOutbound l).pins = s.pins ∧ (s.withOutbound l).pending = s.pending :=
  ⟨rfl, rfl, rfl, rfl, rfl, rfl, rfl, rfl, rfl, rfl⟩

@[simp] theorem State.withOutbound_readers (s : State) (l : List OutboundFrame) :
    (s.withOutbound l).activeBank = s.activeBank ∧ (s.withOutbound l).shadowBank = s.shadowBank ∧
    (∀ i, (s.withOutbound l).slotRecord i = s.slotRecord i) ∧ (∀ i, (s.withOutbound l).entryRecord i = s.entryRecord i) ∧
    (∀ i, (s.withOutbound l).slot i = s.slot i) ∧ (∀ i, (s.withOutbound l).entry i = s.entry i) ∧
    (s.withOutbound l).cycleNumber = s.cycleNumber ∧ (s.withOutbound l).isAwake = s.isAwake :=
  ⟨rfl, rfl, fun _ => rfl, fun _ => rfl, fun _ => rfl, fun _ => rfl, rfl, rfl⟩

@[simp] theorem State.withOutbound_frames (s : State) (l : List OutboundFrame) :
    (s.withOutbound l).frames = { s.frames with outbound := l } := rfl

/-! ## Operations that read nothing of the outbound buffer -/

/-- An operation does the same whatever the outbound relay buffer holds, and leaves that as it is. -/
def ignoresOutbound (f : State → State) : Prop :=
  ∀ s (l : List OutboundFrame), f (s.withOutbound l) = (f s).withOutbound l

theorem ignoresOutbound.comp {f g : State → State} (hf : ignoresOutbound f) (hg : ignoresOutbound g) :
    ignoresOutbound fun s => f (g s) := fun s l => by
  show f (g (s.withOutbound l)) = _
  rw [hg s l, hf (g s) l]

theorem ignoresOutbound.ite {p : State → Prop} [DecidablePred p] {f g : State → State}
    (hp : ∀ s (l : List OutboundFrame), p (s.withOutbound l) ↔ p s) (hf : ignoresOutbound f) (hg : ignoresOutbound g) :
    ignoresOutbound fun s => if p s then f s else g s := fun s l => by
  by_cases h : p s
  · simp only [if_pos h, if_pos ((hp s l).mpr h), hf s l]
  · simp only [if_neg h, if_neg fun h' => h ((hp s l).mp h'), hg s l]

theorem ignoresOutbound_id : ignoresOutbound fun s => s := fun _ _ => rfl

theorem postAll_ignoresOutbound (records : List (Fin 4 × Detail)) : ignoresOutbound (postAll records) := by
  intro s l
  induction records generalizing s with
  | nil => rfl
  | cons r records ih => exact ih (post r.1 r.2 s)

theorem leaveTracking_ignoresOutbound (left : Fin 32 → Bool) : ignoresOutbound (leaveTracking left) := by
  intro s l
  simp only [leaveTracking, State.withOutbound_readers]
  rw [← postAll_ignoresOutbound]
  rfl

theorem evaluateCycleEnd_ignoresOutbound : ignoresOutbound evaluateCycleEnd := by
  intro s l
  have hposted := fun records after => postAll_ignoresOutbound records (s.withSlots after) l
  simp only [evaluateCycleEnd, changeSlots]
  rw [← leaveTracking_ignoresOutbound, ← hposted]
  rfl

theorem postCapture_ignoresOutbound : ignoresOutbound postCapture := by
  intro s l
  simp only [postCapture, State.withOutbound_keeps]
  split <;> rfl

theorem postFinding_ignoresOutbound (e : CycleEnding) : ignoresOutbound (postFinding e) := by
  intro s l
  cases e <;> rfl

theorem settleCycle_ignoresOutbound (e : CycleEnding) : ignoresOutbound (settleCycle e) := by
  have hsettle : ignoresOutbound settleLines := fun _ _ => rfl
  have hclose : ignoresOutbound closeLink := fun _ _ => rfl
  exact hsettle.comp (evaluateCycleEnd_ignoresOutbound.comp
    (postCapture_ignoresOutbound.comp ((postFinding_ignoresOutbound e).comp hclose)))

theorem buildReport_withOutbound (s : State) (l : List OutboundFrame) :
    buildReport (s.withOutbound l) = ((buildReport s).1.withOutbound l, (buildReport s).2) := by
  have hframe : ∀ u : State, reportFrame (u.withOutbound l) = reportFrame u := fun _ => rfl
  have hdrawn : numberReport (drawItems (s.withOutbound l)) = (numberReport (drawItems s)).withOutbound l := rfl
  simp only [buildReport, hdrawn, hframe]
  rfl

theorem endCycle_ignoresOutbound (e : CycleEnding) : ignoresOutbound (endCycle e) := by
  intro s l
  have hclose : ∀ u : State, e.closeFrame (u.withOutbound l) = e.closeFrame u := fun u => by cases e <;> rfl
  simp only [endCycle, settleCycle_ignoresOutbound e s l, hclose, buildReport_withOutbound]
  rfl

theorem overtake_ignoresOutbound : ignoresOutbound overtake :=
  ignoresOutbound.ite (p := fun s => s.cycle.link = .opened) (fun _ _ => Iff.rfl)
    ((endCycle_ignoresOutbound .overtaken).comp (fun _ _ => rfl)) ignoresOutbound_id

theorem checkPeriod_ignoresOutbound (arrival : LinkState) : ignoresOutbound (checkPeriod arrival) := by
  intro s l
  simp only [checkPeriod, State.withOutbound_readers, State.withOutbound_keeps]
  split_ifs <;> rfl

theorem checkNumber_ignoresOutbound (arrival : LinkState) (n : Word) : ignoresOutbound (checkNumber arrival n) := by
  intro s l
  simp only [checkNumber, State.withOutbound_readers]
  split_ifs <;> rfl

theorem resume_ignoresOutbound (n : Word) : ignoresOutbound (resume n) := by
  intro s l
  simp only [resume, State.withOutbound_keeps]
  split_ifs <;> rfl

theorem applyAcks_ignoresOutbound (acks : List (Byte × Byte)) : ignoresOutbound (applyAcks acks) := by
  intro s l
  simp only [applyAcks, State.withOutbound_keeps]
  split_ifs <;> rfl

theorem swapBanks_ignoresOutbound : ignoresOutbound swapBanks := by
  intro s l
  have hcarried : ∀ old : Bank, ignoresOutbound (carryBanks old) := by
    intro old u l
    have hover : carryOver old (u.withOutbound l) = (carryOver old u).withOutbound l := by
      have hslot : (u.withOutbound l).slot = u.slot := rfl
      simp only [carryOver, State.withOutbound_readers, hslot]
      rw [← postAll_ignoresOutbound]
      rfl
    simp only [carryBanks, State.withOutbound_keeps, hover]
    split <;> rfl
  have hexchanged := hcarried s.activeBank (s.withConfig { s.config with active := s.config.active.other }) l
  simp only [swapBanks, State.withOutbound_keeps, State.withOutbound_readers]
  split
  · rfl
  · exact congrArg (completeCommit _) hexchanged

theorem applyMode_ignoresOutbound : ignoresOutbound applyMode := by
  intro s l
  simp only [applyMode, State.withOutbound_keeps, State.withOutbound_readers]
  split
  · rfl
  · split_ifs <;> rfl
  · rfl

theorem startCycle_ignoresOutbound (n : Word) : ignoresOutbound (startCycle n) := by
  have hsettle : ignoresOutbound settleLines := fun _ _ => rfl
  have hopen : ignoresOutbound (openLink n) := fun _ _ => rfl
  have hclear : ignoresOutbound clearIndications := fun _ _ => rfl
  exact hsettle.comp (hopen.comp (applyMode_ignoresOutbound.comp (swapBanks_ignoresOutbound.comp hclear)))

theorem takeOpen_eq (o : OpenBody) (s : State) : takeOpen o s = startCycle o.cycle (s.beforeStart o) := rfl

theorem takeOpen_ignoresOutbound (o : OpenBody) : ignoresOutbound (takeOpen o) := by
  intro s l
  have hbefore := (resume_ignoresOutbound o.cycle).comp ((checkNumber_ignoresOutbound s.cycle.link o.cycle).comp
    ((checkPeriod_ignoresOutbound s.cycle.link).comp (overtake_ignoresOutbound.comp (applyAcks_ignoresOutbound o.acks))))
  exact ((startCycle_ignoresOutbound o.cycle).comp hbefore) s l

/-- An OPEN taken at its reception: the taking, and its place for forwarding. -/
theorem exec_takesOpen {s : State} {run : Run} {o : OpenBody} (h : s.takesOpen run o) :
    exec (.frameReceivedCp run) s =
      .next ((takeOpen o s).withOutbound (s.frames.outbound ++ [{ run, handled := true }])) := by
  obtain ⟨hhandles, hends, f, hf, htype, hparse⟩ := h
  have hentered : exec (.frameReceivedCp run) s =
      .next (handleWaiting (s.withOutbound (s.frames.outbound ++ [{ run, handled := false }]))) := by
    rw [exec_frameReceivedCp_handled hhandles, judgeRun_of_intact hf]
    rfl
  have htaken : handOpen f.body (s.withOutbound (s.frames.outbound ++ [{ run, handled := false }])) =
      (takeOpen o s).withOutbound (s.frames.outbound ++ [{ run, handled := false }]) := by
    rw [← takeOpen_ignoresOutbound, handOpen, hparse]
  rw [hentered, handleWaiting_split rfl hhandles.2.2.2.1, handleInTurn_open hf htype, htaken]
  · rfl
  · exact hends

end Sys2Proof.Machine
end

section
/-! PROOF. The effects of an OPEN with nothing pending: the acknowledgement, the checks, the start (R79 to R84). -/

namespace Sys2Proof.Machine

/-! ## The acknowledgement (R122, R123, R126) -/

/-- A pair that names the part and the last report number empties the Sent Set and frees the credits of its responses, and any
other list leaves both. -/
theorem applyAcks_effect (acks : List (Byte × Byte)) (s : State) :
    if (acks.find? fun a => decide (a.1 = strapByte s.pins.strap)).map Prod.snd = some s.reports.lastNumber then
      (applyAcks acks s).reports = { s.reports with sentEvents := [], sentResponses := [] } ∧
      (applyAcks acks s).commands = { s.commands with
        freeCredits := s.commands.freeCredits + s.reports.sentResponses.length }
    else (applyAcks acks s).reports = s.reports ∧ (applyAcks acks s).commands = s.commands := by
  unfold applyAcks ackFor
  split_ifs <;> exact ⟨rfl, rfl⟩

/-- The acknowledgement keeps the last report number. -/
theorem applyAcks_lastNumber (acks : List (Byte × Byte)) (s : State) :
    (applyAcks acks s).reports.lastNumber = s.reports.lastNumber := by
  unfold applyAcks
  split_ifs <;> rfl

/-! ## The phases before the start, by the link state -/

section
variable {s : State} (o : OpenBody)

theorem checkPeriod_of_unchecked {arrival : LinkState} (hclosed : arrival ≠ .closed) (hopened : arrival ≠ .opened)
    (u : State) : checkPeriod arrival u = u := if_neg fun h => h.1.elim hclosed hopened

theorem checkNumber_of_unchecked {arrival : LinkState} (hclosed : arrival ≠ .closed) (hopened : arrival ≠ .opened)
    (n : Word) (u : State) : checkNumber arrival n u = u := if_neg fun h => h.1.elim hclosed hopened

theorem overtake_of_not_opened (h : s.cycle.link ≠ .opened) : overtake s = s := if_neg h

theorem resume_of_not_stalled (n : Word) (h : s.cycle.link ≠ .stalled) : resume n s = s := if_neg h

theorem beforeStart_waiting (hlink : s.cycle.link = .waiting) : s.beforeStart o = applyAcks o.acks s := by
  rw [State.beforeStart, overtake_of_not_opened (by simp [hlink]), hlink,
    checkPeriod_of_unchecked (by simp) (by simp), checkNumber_of_unchecked (by simp) (by simp),
    resume_of_not_stalled _ (by simp [hlink])]

theorem beforeStart_stalled (hlink : s.cycle.link = .stalled) :
    s.beforeStart o = resume o.cycle (applyAcks o.acks s) := by
  rw [State.beforeStart, overtake_of_not_opened (by simp [hlink]), hlink,
    checkPeriod_of_unchecked (by simp) (by simp), checkNumber_of_unchecked (by simp) (by simp)]

/-- The checks leave the link state. -/
theorem checks_link (arrival : LinkState) (n : Word) (u : State) :
    (checkNumber arrival n (checkPeriod arrival u)).cycle.link = u.cycle.link := by
  have hperiod : (checkPeriod arrival u).cycle.link = u.cycle.link := by
    unfold checkPeriod
    dsimp only
    split_ifs <;> simp [countCycle]
  rw [← hperiod]
  unfold checkNumber
  dsimp only
  split_ifs <;> simp [countCycle]

theorem beforeStart_closed (hlink : s.cycle.link = .closed) :
    s.beforeStart o = checkNumber .closed o.cycle (checkPeriod .closed (applyAcks o.acks s)) := by
  rw [State.beforeStart, overtake_of_not_opened (by simp [hlink]), hlink,
    resume_of_not_stalled _ (by simp [checks_link, hlink])]

/-- The period check posts CYCLE_SHORT and counts it when the measured period is below a minimum that is not 0 (R81). -/
theorem checkPeriod_effect {arrival : LinkState} (harrival : arrival = .closed ∨ arrival = .opened) {u : State}
    {measured : Ticks} (hmeasured : u.cycle.periodTimer = some measured) :
    let short := u.activeBank.link.periodMinimum ≠ 0 ∧ measured < u.activeBank.link.periodMinimum
    (checkPeriod arrival u).queue = u.queue.postEach u.cycleNumber (if short then [(3, .cycleShort measured)] else []) ∧
    (checkPeriod arrival u).cycle.counters = { u.cycle.counters with
      shortPeriods := if short then satInc u.cycle.counters.shortPeriods else u.cycle.counters.shortPeriods } := by
  intro short
  by_cases hshort : short
  · rw [checkPeriod, if_pos ⟨harrival, by simpa [hmeasured, short] using hshort⟩, if_pos hshort, if_pos hshort]
    simp [countCycle, hmeasured]
  · rw [checkPeriod, if_neg fun h => hshort (by simpa [hmeasured, short] using h.2), if_neg hshort, if_neg hshort]
    exact ⟨rfl, rfl⟩

/-- The number check posts CYCLE_SKIP and counts it when the number is not the one expected (R82). -/
theorem checkNumber_effect {arrival : LinkState} (harrival : arrival = .closed ∨ arrival = .opened) (n : Word) (u : State) :
    let skip := n ≠ u.cycleNumber + 1
    (checkNumber arrival n u).queue =
      u.queue.postEach u.cycleNumber (if skip then [(3, .cycleSkip (u.cycleNumber + 1) n)] else []) ∧
    (checkNumber arrival n u).cycle.counters = { u.cycle.counters with
      skips := if skip then satInc u.cycle.counters.skips else u.cycle.counters.skips } := by
  intro skip
  by_cases hskip : skip
  · rw [checkNumber, if_pos ⟨harrival, hskip⟩, if_pos hskip, if_pos hskip]
    simp [countCycle]
  · rw [checkNumber, if_neg fun h => hskip h.2, if_neg hskip, if_neg hskip]
    exact ⟨rfl, rfl⟩

theorem checkPeriod_cycleNumber (arrival : LinkState) (u : State) :
    (checkPeriod arrival u).cycleNumber = u.cycleNumber := by
  unfold checkPeriod
  dsimp only
  split_ifs <;> simp [countCycle, State.cycleNumber]

/-- Both checks post what they find with the number of the cycle before, and count it. -/
theorem checks_effect {arrival : LinkState} (harrival : arrival = .closed ∨ arrival = .opened) (n : Word) {u : State}
    {current : Word} {measured : Ticks} (hcurrent : u.cycle.currentCycle = some current)
    (hmeasured : u.cycle.periodTimer = some measured) :
    let short := u.activeBank.link.periodMinimum ≠ 0 ∧ measured < u.activeBank.link.periodMinimum
    let skip := n ≠ current + 1
    (checkNumber arrival n (checkPeriod arrival u)).queue = u.queue.postEach current
      ((if short then [(3, .cycleShort measured)] else []) ++ (if skip then [(3, .cycleSkip (current + 1) n)] else [])) ∧
    (checkNumber arrival n (checkPeriod arrival u)).cycle.counters = { u.cycle.counters with
      shortPeriods := if short then satInc u.cycle.counters.shortPeriods else u.cycle.counters.shortPeriods
      skips := if skip then satInc u.cycle.counters.skips else u.cycle.counters.skips } := by
  have hnumber : u.cycleNumber = current := by simp [State.cycleNumber, hcurrent]
  have hnumber' : (checkPeriod arrival u).cycleNumber = current := by rw [checkPeriod_cycleNumber, hnumber]
  obtain ⟨hqueue, hcounters⟩ := checkPeriod_effect harrival hmeasured
  obtain ⟨hqueue', hcounters'⟩ := checkNumber_effect harrival n (checkPeriod arrival u)
  rw [hnumber] at hqueue
  rw [hnumber', hqueue] at hqueue'
  rw [hnumber', hcounters] at hcounters'
  exact ⟨by rw [hqueue', EventQueue.postEach_append], hcounters'⟩

end

/-! ## The start with nothing pending -/

theorem startCycle_of_none {s : State} (hcommit : s.config.pendingCommit = none) (hmode : s.config.pendingMode = none)
    (n : Word) : startCycle n s = settleLines (openLink n (clearIndications s)) := by
  rw [startCycle, swapBanks_none (by simpa using hcommit), applyMode_none (by simpa using hmode)]

theorem beforeStart_config (o : OpenBody) (s : State) : (s.beforeStart o).config = s.config := by
  simp [State.beforeStart]

theorem takeOpen_of_none {s : State} (hcommit : s.config.pendingCommit = none) (hmode : s.config.pendingMode = none)
    (o : OpenBody) : takeOpen o s = settleLines (openLink o.cycle (clearIndications (s.beforeStart o))) := by
  rw [takeOpen_eq, startCycle_of_none (by rwa [beforeStart_config]) (by rwa [beforeStart_config])]

/-- Settles O16: from WAITING nothing is checked, and the acknowledgement is all that stands before the start. -/
theorem openFromWaiting : Obligations.OpenFromWaiting := by
  intro s run o htakes hlink hcommit hmode
  refine ⟨_, exec_takesOpen htakes, ?_⟩
  rw [takeOpen_of_none hcommit hmode, beforeStart_waiting o hlink]
  have hacks := applyAcks_effect o.acks s
  refine ⟨by simp, by simp, by simp, by simp, by simp, by simp [clearIndications], by simp, by simp, ?_⟩
  split_ifs at hacks ⊢ with hnamed
  · exact ⟨by simpa using hacks.1, by simpa using hacks.2⟩
  · exact ⟨by simpa using hacks.1, by simpa using hacks.2⟩

/-- Settles O17: the checks of a CLOSED link and the resumption of a STALLED one, on the state the acknowledgement leaves. -/
theorem openChecksPeriodAndNumber : Obligations.OpenChecksPeriodAndNumber := by
  intro s run o current measured htakes hcommit hmode hcurrent hmeasured short skip
  refine ⟨_, exec_takesOpen htakes, fun hlink => ?_, fun hlink => ?_, fun hlink => ?_⟩
  · obtain ⟨hqueue, hcounters⟩ := checks_effect (arrival := .closed) (.inl rfl) o.cycle (u := applyAcks o.acks s)
      (by simpa using hcurrent) (by simpa using hmeasured)
    rw [takeOpen_of_none hcommit hmode, beforeStart_closed o hlink]
    exact ⟨by simpa [short, skip] using hqueue, by simp [hcounters, short, skip]⟩
  · have hresumed : (resume o.cycle (applyAcks o.acks s)).queue = s.queue.post current 3 (.cycleResumed o.cycle) := by
      rw [resume, if_pos (by simpa using hlink)]
      simp [State.cycleNumber, hcurrent]
    rw [takeOpen_of_none hcommit hmode, beforeStart_stalled o hlink]
    exact ⟨by simp [hresumed], by simp [resume_cycle, hlink]⟩
  · have hacks := applyAcks_effect o.acks s
    have hbefore : (s.beforeStart o).reports = (applyAcks o.acks s).reports ∧
        (s.beforeStart o).commands = (applyAcks o.acks s).commands := by
      rcases hlink with hlink | hlink
      · simp [beforeStart_closed o hlink]
      · simp [beforeStart_stalled o hlink]
    rw [takeOpen_of_none hcommit hmode]
    simpa [hbefore] using hacks

end Sys2Proof.Machine
end

section
/-! PROOF. The ends of a cycle: the records posted, the REPORT built and its placing, by a CLOSE, by the deadline and by an
OPEN that overtakes; the late CLOSE and the stall (R80, R85 to R91). -/

namespace Sys2Proof.Machine

/-! ## The postings of a cycle end (R85, R94) -/

/-- The finding of a cycle end. -/
def CycleEnding.finding (e : CycleEnding) (current : Word) : List (Fin 4 × Detail) :=
  match e with
  | .close _ => []
  | .deadline => [(3, .closeMissed current)]
  | .overtaken => [(3, .cycleOvertaken current)]

theorem postFinding_queue (e : CycleEnding) (s : State) :
    (postFinding e s).queue = s.queue.postEach s.cycleNumber (e.finding s.cycleNumber) := by
  cases e <;> rfl

/-- The queue when a filled capture slot has been posted into it, with its own cycle number (R94). -/
def EventQueue.postCaptured (q : EventQueue) : Option CaptureSlot → EventQueue
  | none => q
  | some c => q.post c.cycle 1 (.capture c.ticks c.extraEdges .opened)

theorem postCapture_queue (s : State) : (postCapture s).queue = s.queue.postCaptured s.cycle.captureSlot := by
  cases hslot : s.cycle.captureSlot <;> simp [postCapture, hslot, EventQueue.postCaptured]

theorem State.queueAfterEnd_eq (s t : State) (finding : List (Fin 4 × Detail)) : s.queueAfterEnd t finding =
    ((s.queue.postEach s.cycleNumber finding).postCaptured s.cycle.captureSlot).postEach s.cycleNumber
      (slotRecords s.activeBank s.slot (fun i => missingStep (s.slotRecord i) (s.slot i)) ++
       slotRecords s.activeBank (fun i => missingStep (s.slotRecord i) (s.slot i))
         (partnerStep s.activeBank fun i => missingStep (s.slotRecord i) (s.slot i)) ++ s.transitions t 0 true) := by
  unfold State.queueAfterEnd
  cases s.cycle.captureSlot <;> rfl

theorem evaluateCycleEnd_queue (s : State) : (evaluateCycleEnd s).queue =
    s.queue.postEach s.cycleNumber
      (slotRecords s.activeBank s.slot (fun i => missingStep (s.slotRecord i) (s.slot i)) ++
       slotRecords s.activeBank (fun i => missingStep (s.slotRecord i) (s.slot i))
         (partnerStep s.activeBank fun i => missingStep (s.slotRecord i) (s.slot i)) ++
       s.transitions (evaluateCycleEnd s) 0 true) :=
  changeSlots_queue _ _ s 0

/-- The transitions between two states are read from the entry records and the entries. -/
theorem State.transitions_congr {s s' t t' : State} (hrecord : ∀ i, s'.entryRecord i = s.entryRecord i)
    (hentry : ∀ i, s'.entry i = s.entry i) (hentry' : ∀ i, t'.entry i = t.entry i) (p : Word) (leaves : Bool) :
    s'.transitions t' p leaves = s.transitions t p leaves := by
  simp only [State.transitions, hrecord, hentry, hentry']

/-- The postings of a cycle end are read from the queue, the cycle, the active bank, the slots and the entries. -/
theorem State.queueAfterEnd_congr {s s' t t' : State} (hqueue : s'.queue = s.queue)
    (hcurrent : s'.cycle.currentCycle = s.cycle.currentCycle) (hcapture : s'.cycle.captureSlot = s.cycle.captureSlot)
    (hbank : s'.activeBank = s.activeBank) (hslot : ∀ i, s'.slot i = s.slot i) (hentry : ∀ i, s'.entry i = s.entry i)
    (hentry' : ∀ i, t'.entry i = t.entry i) (finding : List (Fin 4 × Detail)) :
    s'.queueAfterEnd t' finding = s.queueAfterEnd t finding := by
  have hnumber : s'.cycleNumber = s.cycleNumber := by rw [State.cycleNumber, hcurrent]; rfl
  have hslots : s'.slot = s.slot := funext hslot
  have hrecords : s'.slotRecord = s.slotRecord := funext fun i => by rw [State.slotRecord, hbank]; rfl
  have htransitions := State.transitions_congr (fun i => by rw [State.entryRecord, hbank]; rfl) hentry hentry' 0 true
  rw [s'.queueAfterEnd_eq, s.queueAfterEnd_eq, hnumber, hqueue, hcapture, hbank, hslots, hrecords, htransitions]

/-- The postings of a cycle end are those the statements name (R85). -/
theorem settleCycle_queue (e : CycleEnding) (s : State) :
    (settleCycle e s).queue = s.queueAfterEnd (settleCycle e s) (e.finding s.cycleNumber) := by
  have hclosed : (closeLink s).cycleNumber = s.cycleNumber := rfl
  have hpost := postCapture_queue (postFinding e (closeLink s))
  have hcapture : (postFinding e (closeLink s)).cycle.captureSlot = s.cycle.captureSlot := by simp [closeLink]
  rw [postFinding_queue, hclosed, hcapture] at hpost
  have hslots : (postCapture (postFinding e (closeLink s))).slot = s.slot := funext fun i => by simp
  have hrecords : (postCapture (postFinding e (closeLink s))).slotRecord = s.slotRecord := funext fun i => by simp
  have hbank : (postCapture (postFinding e (closeLink s))).activeBank = s.activeBank := by simp
  have hnumber : (postCapture (postFinding e (closeLink s))).cycleNumber = s.cycleNumber := by
    simp [State.cycleNumber, closeLink]
  have htransitions := State.transitions_congr (s := s) (s' := postCapture (postFinding e (closeLink s)))
    (t := settleCycle e s) (t' := evaluateCycleEnd (postCapture (postFinding e (closeLink s))))
    (by simp) (by simp) (fun i => by simp [settleCycle]) 0 true
  have hsettled : (settleCycle e s).queue = (evaluateCycleEnd (postCapture (postFinding e (closeLink s)))).queue := by
    simp [settleCycle]
  rw [hsettled, evaluateCycleEnd_queue, s.queueAfterEnd_eq, htransitions, hpost, hslots, hrecords, hbank, hnumber]
  rfl

/-! ## The entries of a cycle end (R65) -/

theorem leaveEntry_eq_left (e : EntryState) : leaveEntry e = e.left := by
  obtain ⟨condition, latch⟩ := e
  cases latch <;> rfl

/-- The entries of the slots that leave tracking at a cycle end, as the statements name them. -/
theorem settleCycle_entry (e : CycleEnding) (s : State) (j : Fin 64) : (settleCycle e s).entry j =
    if (s.entryRecord j).used = true ∧ (s.slot (s.entryRecord j).slot).health.inPair = true ∧
        ((settleCycle e s).slot (s.entryRecord j).slot).health.inPair = false then (s.entry j).left
    else s.entry j := by
  have hend : (settleCycle e s).entry j = (endCycle e s).entry j := by simp [endCycle]
  rw [hend, endCycle_entry, settleCycle_slot, leaveEntry_eq_left]
  simp only [leavers, Bool.and_eq_true, Bool.not_eq_true']

theorem settleCycle_obeys (e : CycleEnding) {s : State} (hawake : s.isAwake = true) :
    (settleCycle e s).linesObeyLaws := settleLines_obeys _ (by simpa using hawake)

/-! ## An OPEN overtakes (R80) -/

/-- The state an overtaken cycle ends in: the acknowledgement applied, the overtaking counted. -/
def State.overtaken (s : State) (o : OpenBody) : State :=
  countCycle (fun c => { c with overtaken := satInc c.overtaken }) (applyAcks o.acks s)

@[simp] theorem State.overtaken_keeps (s : State) (o : OpenBody) :
    (s.overtaken o).frames = s.frames ∧ (s.overtaken o).channels = s.channels ∧ (s.overtaken o).matcher = s.matcher ∧
    (s.overtaken o).queue = s.queue ∧ (s.overtaken o).config = s.config ∧ (s.overtaken o).lines = s.lines ∧
    (s.overtaken o).pins = s.pins ∧ (s.overtaken o).pending = s.pending ∧
    (s.overtaken o).reports = (applyAcks o.acks s).reports ∧ (s.overtaken o).commands = (applyAcks o.acks s).commands ∧
    (s.overtaken o).cycle = { s.cycle with
      counters := { s.cycle.counters with overtaken := satInc s.cycle.counters.overtaken } } := by
  simp [State.overtaken, countCycle]

@[simp] theorem State.overtaken_readers (s : State) (o : OpenBody) :
    (s.overtaken o).activeBank = s.activeBank ∧ (∀ i, (s.overtaken o).slotRecord i = s.slotRecord i) ∧
    (∀ i, (s.overtaken o).entryRecord i = s.entryRecord i) ∧ (∀ i, (s.overtaken o).slot i = s.slot i) ∧
    (∀ i, (s.overtaken o).entry i = s.entry i) ∧ (s.overtaken o).cycleNumber = s.cycleNumber ∧
    (s.overtaken o).isAwake = s.isAwake := by
  have hnumber : (s.overtaken o).cycleNumber = s.cycleNumber := by simp [State.cycleNumber, State.overtaken, countCycle]
  rw [hnumber]
  simp [State.overtaken]

theorem beforeStart_opened {s : State} (o : OpenBody) (hlink : s.cycle.link = .opened) : s.beforeStart o =
    checkNumber .opened o.cycle (checkPeriod .opened (endCycle .overtaken (s.overtaken o))) := by
  have hover : overtake (applyAcks o.acks s) = endCycle .overtaken (s.overtaken o) := if_pos (by simpa using hlink)
  rw [State.beforeStart, hover, hlink, resume_of_not_stalled _ (by simp [checks_link])]

/-- The REPORT of a cycle end takes the next report number (R120). -/
theorem endCycle_lastNumber (e : CycleEnding) (s : State) :
    (endCycle e s).reports.lastNumber = s.reports.lastNumber + 1 := by
  obtain ⟨hreports, -, -⟩ := endCycle_values e s
  obtain ⟨hbuilt, -, -⟩ := buildReport_values (settleCycle e s)
  rw [hreports, hbuilt]
  simp

/-- The placing of end frames reads nothing of the outbound buffer and of the transmitters. -/
theorem FramePath.placedEnd.congr {before after p : FramePath} {report close : InboundFrame}
    (h : before.placedEnd after report close) (hinbound : p.inbound = after.inbound)
    (hcounters : p.counters = after.counters) : before.placedEnd p report close := by
  unfold FramePath.placedEnd at h ⊢
  rwa [hinbound, hcounters]

theorem beforeStart_opened_keeps {s : State} (o : OpenBody) (hlink : s.cycle.link = .opened) :
    (s.beforeStart o).frames = (endCycle .overtaken (s.overtaken o)).frames ∧
    (s.beforeStart o).reports = (endCycle .overtaken (s.overtaken o)).reports ∧
    (s.beforeStart o).commands = (endCycle .overtaken (s.overtaken o)).commands := by
  simp [beforeStart_opened o hlink]

/-- The CLOSE the part synthesizes for a cycle (R87, R181). -/
theorem closeFrame_synthesized {e : CycleEnding} (he : e = .deadline ∨ e = .overtaken) {s : State} {current : Word}
    (hcurrent : s.cycle.currentCycle = some current) : e.closeFrame s = InboundFrame.mk
      (Frame.mk typeClose (strapByte s.pins.strap) (bytes16 current ++ [1, strapByte s.pins.strap])).bytes
      .closeSynthesized := by
  have hnumber : s.cycleNumber = current := by simp [State.cycleNumber, hcurrent]
  rcases he with rfl | rfl <;> simp [CycleEnding.closeFrame, synthesizedClose, hnumber]

/-- Settles O18: the end of the overtaken cycle, on the state the acknowledgement leaves, before the checks and the start. -/
theorem openOvertakesCycle : Obligations.OpenOvertakesCycle := by
  intro s run o current measured htakes hlink hcurrent hmeasured counted settled built short skip
  have hnumber : s.cycleNumber = current := by simp [State.cycleNumber, hcurrent]
  have hcounted : counted = s.overtaken o := rfl
  have hsettled : settled = settleCycle .overtaken (s.overtaken o) := rfl
  have hbuilt : built = buildReport (settleCycle .overtaken (s.overtaken o)) := rfl
  clear_value counted settled built
  subst hcounted hsettled hbuilt
  obtain ⟨hframes, hreports, -⟩ := beforeStart_opened_keeps o hlink
  obtain ⟨hended, hendedQueue, -⟩ := endCycle_values .overtaken (s.overtaken o)
  obtain ⟨hqueue, hcounters⟩ := checks_effect (arrival := .opened) (.inr rfl) o.cycle
    (u := endCycle .overtaken (s.overtaken o)) (by simpa using hcurrent) (by simpa using hmeasured)
  have hclose := closeFrame_synthesized (e := .overtaken) (.inr rfl)
    (s := settleCycle .overtaken (s.overtaken o)) (current := current) (by simpa using hcurrent)
  have hstrap : (settleCycle .overtaken (s.overtaken o)).pins.strap = s.pins.strap := by simp
  rw [hstrap] at hclose
  refine ⟨_, exec_takesOpen htakes, ?_, ?_, ?_, ?_, fun hcommit hmode => ?_, ?_, ?_, fun j => ?_, ?_, ?_, ?_, ?_, ?_⟩
  · rw [takeOpen_eq, beforeStart_opened o hlink]
    simp [startCycle_cycle, hcounters]
  · rw [takeOpen_eq]
    simpa [hreports] using hended
  · rw [takeOpen_eq]
    simp [hreports, endCycle_lastNumber, applyAcks_lastNumber]
  · have hplaced := endCycle_placed .overtaken (s.overtaken o)
    rw [(s.overtaken_keeps o).1] at hplaced
    rw [← hclose]
    refine hplaced.congr ?_ ?_ <;> simp [takeOpen_eq, hframes]
  · rw [takeOpen_of_none hcommit hmode, beforeStart_opened o hlink]
    simpa [hendedQueue, short, skip] using hqueue
  · simp
  · rw [settleCycle_queue]
    rw [(s.overtaken_readers o).2.2.2.2.2.1, hnumber]
    exact State.queueAfterEnd_congr (by simp) (by simp) (by simp) (by simp) (by simp) (by simp) (fun _ => rfl) _
  · simpa using settleCycle_entry .overtaken (s.overtaken o) j
  · exact settleCycle_obeys .overtaken (by simpa using s.isAwake_iff.mpr (.inl htakes.1.1))
  · simp
  · simp
  · simp
  · simp

end Sys2Proof.Machine
end

section
/-! PROOF. The build of a REPORT: what is repeated, what is drawn, and the bytes (R115 to R121). -/

namespace Sys2Proof.Machine

/-! ## The items (R115 to R118) -/

/-- The event items of the Sent Set that have not been sent four times. -/
def ReportBuilder.repeatedEvents (r : ReportBuilder) : List SentEvent := r.sentEvents.filter fun e => decide (e.sendCount < 4)

/-- The response items of the Sent Set that have not been sent four times. -/
def ReportBuilder.repeatedResponses (r : ReportBuilder) : List SentResponse :=
  r.sentResponses.filter fun e => decide (e.sendCount < 4)

theorem drop_length_take {α : Type} (k : Nat) (l : List α) : l.drop (l.take k).length = l.drop k := by
  rw [List.length_take]
  rcases le_total k l.length with h | h
  · rw [min_eq_left h]
  · rw [min_eq_right h, List.drop_length, List.drop_eq_nil_of_le h]

/-- The queue a build leaves. -/
theorem drawItems_queue (s : State) : (drawItems s).queue =
    { s.queue with records := s.queue.records.drop (8 - s.reports.repeatedEvents.length) } := by
  rw [← drop_length_take]
  rfl

/-- The Command Unit a build leaves. -/
theorem drawItems_commands (s : State) : (drawItems s).commands = { s.commands with
    responses := s.commands.responses.drop (2 - s.reports.repeatedResponses.length)
    freeCredits := s.commands.freeCredits +
      (s.reports.sentResponses.length - s.reports.repeatedResponses.length) } := by
  rw [← drop_length_take]
  rfl

/-- The Report Builder a build leaves, but for the number and the count of commands dropped. -/
theorem drawItems_reports (s : State) : (drawItems s).reports = { s.reports with
    sentEvents := s.reports.repeatedEvents.map (fun e => { e with sendCount := e.sendCount + 1 }) ++
      (s.queue.records.take (8 - s.reports.repeatedEvents.length)).map (fun x => { record := x, sendCount := 1 })
    sentResponses := s.reports.repeatedResponses.map (fun r => { r with sendCount := r.sendCount + 1 }) ++
      (s.commands.responses.take (2 - s.reports.repeatedResponses.length)).map
        (fun x => { response := x, sendCount := 1 })
    abandoned := BitVec.ofNat 8 (min 255 (s.reports.abandoned.toNat +
      (s.reports.sentEvents.length - s.reports.repeatedEvents.length) +
      (s.reports.sentResponses.length - s.reports.repeatedResponses.length))) } := by
  have habandoned : ∀ gone goneResponses : Nat, satAdd s.reports.abandoned (gone + goneResponses) =
      BitVec.ofNat 8 (min 255 (s.reports.abandoned.toNat + gone + goneResponses)) := fun gone goneResponses => by
    rw [Nat.add_assoc]
    rfl
  rw [← habandoned]
  rfl

/-! ## The frame (R120, R121, R124) -/

/-- The REPORT is of the Sent Set and the status the build leaves, the count of commands dropped as it was. -/
theorem buildReport_frame (s : State) : (buildReport s).2 = (Frame.mk typeReport (strapByte s.pins.strap)
    (reportBody (buildReport s).1.reports s.cycleNumber (statusBlock ((buildReport s).1.withReports
      { (buildReport s).1.reports with droppedSinceReport := s.reports.droppedSinceReport })))).bytes := rfl

/-- In a response item the outcome's bit and the reason's code stand in one byte. -/
theorem SentResponse.bytes_eq (r : SentResponse) : r.bytes =
    [r.response.tag, r.response.kind,
      (if r.response.outcome = .refused then 0x80 else 0) + r.response.reason.code, byteOf r.response.data.length] ++
    r.response.data := by
  unfold SentResponse.bytes
  cases r.response.outcome <;> cases r.response.reason <;> rfl

theorem pendingModeCode_eq (change : Option (Mode × Byte)) : pendingModeCode change =
    (match change with | none => 0 | some (.standby, _) => 1 | some (.monitor, _) => 2) := by
  rcases change with _ | ⟨_ | _, tag⟩ <;> rfl

/-- Settles O36: phase by phase, the items left being those of the frame. -/
theorem buildRepeatsThenDraws : Obligations.BuildRepeatsThenDraws := by
  intro s hevents hresponses t keptEvents keptResponses status kind eventItem responseItem
  have hreports : t.reports = { (drawItems s).reports with
      lastNumber := s.reports.lastNumber + 1, droppedSinceReport := 0 } := rfl
  have hqueue : t.queue = (drawItems s).queue := rfl
  have hcommands : t.commands = (drawItems s).commands := rfl
  rw [drawItems_reports] at hreports
  rw [drawItems_queue] at hqueue
  rw [drawItems_commands] at hcommands
  have hkept : keptEvents.length ≤ 8 := (List.length_filter_le _ _).trans hevents
  have hkeptResponses : keptResponses.length ≤ 2 := (List.length_filter_le _ _).trans hresponses
  refine ⟨?_, s.queue.records.take (8 - keptEvents.length), s.commands.responses.take (2 - keptResponses.length),
    ?_, ?_, ?_, ?_, ?_, ?_, ?_, ?_, ?_, ?_, ?_, ?_, ?_⟩
  · have hitem : SentEvent.bytes = eventItem := by
      funext e
      simp only [SentEvent.bytes, eventItem, kind]
      cases e.record.detail <;> rfl
    have hresponseItem : SentResponse.bytes = responseItem := funext SentResponse.bytes_eq
    have hstatus : statusBlock (t.withReports { t.reports with
        droppedSinceReport := s.reports.droppedSinceReport }) = status := by
      simp only [statusBlock, status, pendingModeCode_eq] <;> rfl
    rw [buildReport_frame, reportBody, hitem, hresponseItem, hstatus]
    simp only [List.append_assoc]
    rfl
  · simp [hreports, keptEvents, ReportBuilder.repeatedEvents]
  · simp [hreports, keptResponses, ReportBuilder.repeatedResponses]
  · rw [hqueue]
    exact (List.take_append_drop _ _).symm
  · rw [hcommands]
    exact (List.take_append_drop _ _).symm
  · have hlength : t.reports.sentEvents.length = keptEvents.length + min (8 - keptEvents.length) s.queue.records.length := by
      rw [hreports]
      simp [keptEvents, ReportBuilder.repeatedEvents]
    rw [hlength, hqueue, List.drop_eq_nil_iff]
    change _ ∨ _ ∧ s.queue.records.length ≤ 8 - keptEvents.length
    omega
  · have hlength : t.reports.sentResponses.length =
        keptResponses.length + min (2 - keptResponses.length) s.commands.responses.length := by
      rw [hreports]
      simp [keptResponses, ReportBuilder.repeatedResponses]
    rw [hlength, hcommands, List.drop_eq_nil_iff]
    change _ ∨ _ ∧ s.commands.responses.length ≤ 2 - keptResponses.length
    omega
  · rw [hreports]
    rfl
  · rw [hcommands]
    rfl
  · rw [hreports]
  · rw [hreports]
  · rw [hqueue]
  · rw [hqueue]
  · rfl

/-! ## The cycle end as one happening (R85 to R87) -/

/-- The REPORT of a cycle end, of the state the end leaves but for the count of commands dropped. -/
theorem endCycle_report (e : CycleEnding) (s : State) : (buildReport (settleCycle e s)).2 =
    (Frame.mk typeReport (strapByte s.pins.strap) (reportBody (endCycle e s).reports s.cycleNumber
      (statusBlock { endCycle e s with reports := { (endCycle e s).reports with
        droppedSinceReport := s.reports.droppedSinceReport } }))).bytes := by
  have hstrap : (settleCycle e s).pins.strap = s.pins.strap := by simp
  have hnumber : (settleCycle e s).cycleNumber = s.cycleNumber := by simp [State.cycleNumber]
  have hdropped : (settleCycle e s).reports.droppedSinceReport = s.reports.droppedSinceReport := by simp
  rw [buildReport_frame, hstrap, hnumber, hdropped]
  rfl

theorem endCycle_queue (e : CycleEnding) (s : State) :
    let posted := s.queueAfterEnd (endCycle e s) (e.finding s.cycleNumber)
    (endCycle e s).queue = { posted with records := posted.records.drop (8 - s.reports.repeatedEvents.length) } ∧
    (endCycle e s).reports.sentEvents = s.reports.repeatedEvents.map (fun x => { x with sendCount := x.sendCount + 1 }) ++
      (posted.records.take (8 - s.reports.repeatedEvents.length)).map (fun x => { record := x, sendCount := 1 }) := by
  intro posted
  obtain ⟨hreports, hqueue, -⟩ := endCycle_values e s
  obtain ⟨hbuilt, hbuiltQueue, -⟩ := buildReport_values (settleCycle e s)
  have hposted : (settleCycle e s).queue = posted := by
    rw [settleCycle_queue]
    exact State.queueAfterEnd_congr rfl rfl rfl rfl (fun _ => rfl) (fun _ => rfl) (by simp [endCycle]) _
  have hsent : (settleCycle e s).reports = s.reports := by simp
  exact ⟨by rw [hqueue, hbuiltQueue, drawItems_queue, hposted, hsent],
    by rw [hreports, hbuilt, drawItems_reports, hposted, hsent]⟩

theorem endCycle_commands (e : CycleEnding) (s : State) : (endCycle e s).commands = { s.commands with
    responses := s.commands.responses.drop (2 - s.reports.repeatedResponses.length)
    freeCredits := s.commands.freeCredits +
      (s.reports.sentResponses.length - s.reports.repeatedResponses.length) } := by
  obtain ⟨-, -, hcommands⟩ := endCycle_values e s
  obtain ⟨-, -, hbuilt⟩ := buildReport_values (settleCycle e s)
  rw [hcommands, hbuilt, drawItems_commands]
  simp

theorem endCycle_reports (e : CycleEnding) (s : State) :
    (endCycle e s).reports.sentResponses =
      s.reports.repeatedResponses.map (fun r => { r with sendCount := r.sendCount + 1 }) ++
      (s.commands.responses.take (2 - s.reports.repeatedResponses.length)).map
        (fun x => { response := x, sendCount := 1 }) ∧
    (endCycle e s).reports.abandoned = BitVec.ofNat 8 (min 255 (s.reports.abandoned.toNat +
      (s.reports.sentEvents.length - s.reports.repeatedEvents.length) +
      (s.reports.sentResponses.length - s.reports.repeatedResponses.length))) ∧
    (endCycle e s).reports.droppedSinceReport = 0 := by
  obtain ⟨hreports, -, -⟩ := endCycle_values e s
  obtain ⟨hbuilt, -, -⟩ := buildReport_values (settleCycle e s)
  have hsent : (settleCycle e s).reports = s.reports := by simp
  have hheld : (settleCycle e s).commands = s.commands := by simp
  rw [hreports, hbuilt, drawItems_reports, hsent, hheld]
  exact ⟨rfl, rfl, rfl⟩

theorem endCycle_left (e : CycleEnding) (s : State) (j : Fin 64) : (endCycle e s).entry j =
    if (s.entryRecord j).used = true ∧ (s.slot (s.entryRecord j).slot).health.inPair = true ∧
        ((endCycle e s).slot (s.entryRecord j).slot).health.inPair = false then (s.entry j).left
    else s.entry j := by
  have hentry : (endCycle e s).entry j = (settleCycle e s).entry j := by simp [endCycle]
  have hslot : ∀ i, (endCycle e s).slot i = (settleCycle e s).slot i := by simp [endCycle]
  rw [hentry, hslot]
  exact settleCycle_entry e s j

theorem endCycle_obeys (e : CycleEnding) {s : State} (hawake : s.isAwake = true) : (endCycle e s).linesObeyLaws :=
  State.linesObeyLaws.congr (settleCycle_obeys e hawake) (by simp [endCycle]) (by simp [endCycle]) (by simp [endCycle])
    (by simp [endCycle]) (fun i => by simp [endCycle]) (fun i => by simp [endCycle]) (by simp)

end Sys2Proof.Machine
end

section
/-! PROOF. The commands that end a cycle, the late CLOSE and the stall (R86 to R91). -/

namespace Sys2Proof.Machine

/-! ## The end by CLOSE and by deadline -/

/-- A deadline timer that stands at 0 has no tick still to run. -/
theorem reachDeadline_of_zero {s : State} (hzero : s.cycle.deadlineTimer = some 0) : reachDeadline s = s := by
  have hadvance : ∀ timer : Option Ticks, advancePeriod 0 timer = timer := by
    rintro (_ | n)
    · rfl
    · have : min (2 ^ 24 - 1) (n.toNat + 0) = n.toNat := by
        have := n.isLt
        omega
      simp only [advancePeriod, Option.map_some, satAdd, this, BitVec.ofNat_toNat, BitVec.setWidth_eq]
  have hcycle : ({ s.cycle with periodTimer := advancePeriod 0 s.cycle.periodTimer, deadlineTimer := some 0 } :
      CycleTracker) = s.cycle := by
    rw [hadvance, ← hzero]
  unfold reachDeadline
  rw [hzero]
  exact congrArg s.withCycle hcycle

theorem exec_closeDeadlineExpiry {s : State} (hphase : s.pins.phase = .running) (hopened : s.cycle.link = .opened)
    (hzero : s.cycle.deadlineTimer = some 0) : exec .closeDeadlineExpiry s =
      .next (endCycle .deadline (countCycle (fun c => { c with deadlineEnds := satInc c.deadlineEnds }) s)) := by
  refine congrArg Host.Outcome.next ?_
  rw [if_pos ⟨hphase, hopened, by simp [hzero]⟩, deadlineEnd, reachDeadline_of_zero hzero]

theorem handleInbound_close {f : Frame} {cycle : Word} (htype : f.type = typeClose)
    (hparse : parseClose f.body = some cycle) (bytes : List Byte) (s : State) :
    handleInbound f bytes s = takeClose cycle bytes s := by
  simp [handleInbound, htype, hparse, typeSample, typeClose]

theorem exec_frameReceivedSp_intact {s : State} {run : Run} {f : Frame} (hphase : s.pins.phase = .running)
    (hearly : run.early = false) (hf : intactFrame run = some f) :
    exec (.frameReceivedSp run) s = .next (handleInbound f run.bytes s) := by
  rw [exec_frameReceivedSp (s.isAwake_iff.mpr (.inl hphase)) hearly, receiveSp_intact hphase hf]

theorem exec_close {s : State} {run : Run} {f : Frame} {current : Word} (hphase : s.pins.phase = .running)
    (hopened : s.cycle.link = .opened) (hcurrent : s.cycle.currentCycle = some current) (hearly : run.early = false)
    (hf : intactFrame run = some f) (htype : f.type = typeClose) (hparse : parseClose f.body = some current) :
    exec (.frameReceivedSp run) s = .next (endCycle (.close run.bytes) s) := by
  rw [exec_frameReceivedSp_intact hphase hearly hf, handleInbound_close htype hparse, takeClose,
    if_pos ⟨hopened, hcurrent⟩]

/-- How a command ends the open cycle: the counting before the end, and the ending. -/
theorem exec_endsCycle {s : State} {c : Instr} (h : s.endsCycle c) : ∃ (e : CycleEnding) (f : CycleCounters → CycleCounters),
    exec c s = .next (endCycle e (countCycle f s)) ∧
    ((c = .closeDeadlineExpiry ∧ e = .deadline ∧ f = fun c => { c with deadlineEnds := satInc c.deadlineEnds }) ∨
      ∃ run, c = .frameReceivedSp run ∧ e = .close run.bytes ∧ f = id) := by
  obtain ⟨hphase, hopened, current, hcurrent, ⟨rfl, hzero⟩ | ⟨run, f, rfl, hearly, hf, htype, hparse⟩⟩ := h
  · exact ⟨_, _, exec_closeDeadlineExpiry hphase hopened hzero, .inl ⟨rfl, rfl, rfl⟩⟩
  · exact ⟨_, id, exec_close hphase hopened hcurrent hearly hf htype hparse, .inr ⟨run, rfl, rfl, rfl⟩⟩

@[simp] theorem countCycle_cycle (f : CycleCounters → CycleCounters) (s : State) :
    (countCycle f s).cycle = { s.cycle with counters := f s.cycle.counters } := rfl

theorem countCycle_cycleNumber (f : CycleCounters → CycleCounters) (s : State) :
    (countCycle f s).cycleNumber = s.cycleNumber := rfl

theorem countCycle_queueAfterEnd (f : CycleCounters → CycleCounters) (s t : State) (finding : List (Fin 4 × Detail)) :
    (countCycle f s).queueAfterEnd t finding = s.queueAfterEnd t finding :=
  State.queueAfterEnd_congr rfl rfl rfl rfl (fun _ => rfl) (fun _ => rfl) (fun _ => rfl) finding

/-- Settles O19: both endings are the one end of the cycle, the deadline's counted. -/
theorem cycleEndsOnce : Obligations.CycleEndsOnce := by
  intro s c current hends hcurrent repeated repeatedResponses
  have hnumber : s.cycleNumber = current := by simp [State.cycleNumber, hcurrent]
  have hawake : s.isAwake = true := s.isAwake_iff.mpr (.inl hends.1)
  obtain ⟨e, f, hexec, hkind⟩ := exec_endsCycle hends
  have hfinding : e.finding current = if c = .closeDeadlineExpiry then [(3, .closeMissed current)] else [] := by
    rcases hkind with ⟨rfl, rfl, -⟩ | ⟨run, rfl, rfl, -⟩ <;> rfl
  obtain ⟨hqueue, hevents⟩ := endCycle_queue e (countCycle f s)
  rw [countCycle_cycleNumber, countCycle_queueAfterEnd, hnumber, hfinding] at hqueue hevents
  obtain ⟨hresponses, habandoned, hdropped⟩ := endCycle_reports e (countCycle f s)
  have hreport := endCycle_report e (countCycle f s)
  rw [countCycle_cycleNumber, hnumber] at hreport
  refine ⟨endCycle e (countCycle f s), (buildReport (settleCycle e (countCycle f s))).2, hexec, ?_, ?_, hreport,
    ⟨hqueue, hevents⟩, hresponses, habandoned, endCycle_commands e (countCycle f s), fun j => ?_,
    endCycle_obeys e hawake, by simp, endCycle_lastNumber e (countCycle f s), hdropped, by simp, by simp, by simp⟩
  · rcases hkind with ⟨rfl, rfl, rfl⟩ | ⟨run, rfl, rfl, rfl⟩ <;> simp
  · have hplaced := endCycle_placed e (countCycle f s)
    rcases hkind with ⟨rfl, rfl, -⟩ | ⟨run, rfl, rfl, -⟩
    · rw [closeFrame_synthesized (.inl rfl) (current := current) (by simpa using hcurrent)] at hplaced
      simpa using hplaced
    · exact hplaced
  · exact endCycle_left e (countCycle f s) j

/-! ## The late CLOSE (R88) -/

/-- Settles O20: the branches of a received CLOSE that end no cycle. -/
theorem lateCloseDiscarded : Obligations.LateCloseDiscarded := by
  intro s run f hphase hearly hf htype
  refine ⟨fun cycle hparse hlate => ?_, fun hmalformed => ?_⟩
  · rw [exec_frameReceivedSp_intact hphase hearly hf, handleInbound_close htype hparse, takeClose, if_neg hlate]
    rfl
  · have hhandled : handleInbound f run.bytes s = admitInbound run.bytes (countMalformedLink s) := by
      simp [handleInbound, htype, hmalformed, typeSample, typeClose]
    rw [exec_frameReceivedSp_intact hphase hearly hf, hhandled]
    by_cases hroom : s.frames.forwardedCount < 6 ∧ s.frames.inbound.length < 8
    · rw [admitInbound_of_room (s := countMalformedLink s) hroom, if_pos hroom]
      rfl
    · rw [admitInbound_of_full (s := countMalformedLink s) hroom, if_neg hroom]
      rfl

/-! ## The stall (R91) -/

/-- The states a stall faults: SETTLING, TRACKING and SUSPECT (R41). -/
theorem stallStep_eq_ite (d : SlotState) : stallStep d =
    if d.health = .settling ∨ d.health = .tracking ∨ d.health = .suspect then d.enterFaulted .stall else d := by
  unfold stallStep
  cases d.health <;> simp

/-- The HEALTH records of a stall: one for each slot faulted (R46). -/
theorem slotRecords_stall (b : Bank) (slots : Fin 32 → SlotState) :
    slotRecords b slots (fun i => stallStep (slots i)) = (List.finRange 32).flatMap fun i =>
      if (slots i).health = .settling ∨ (slots i).health = .tracking ∨ (slots i).health = .suspect then
        [(3, .health i (slots i).health.name .faulted (.fault .stall))] else [] := by
  unfold slotRecords
  congr 1
  funext i
  simp only [stallStep_eq_ite]
  cases hhealth : (slots i).health <;>
    simp [hhealth, healthRecord, changePosts, SlotState.enterFaulted, changeCause, Health.inPair, Health.name]

theorem stallSlots_queue (s : State) : (stallSlots s).queue = s.queue.postEach s.cycleNumber
    (slotRecords s.activeBank s.slot (fun i => stallStep (s.slot i)) ++ s.transitions (stallSlots s) 0 true) :=
  changeSlots_queue _ _ s 0

theorem stallSlots_entry (s : State) (j : Fin 64) : (stallSlots s).entry j =
    if (s.entryRecord j).used = true ∧ (s.slot (s.entryRecord j).slot).health.inPair = true then (s.entry j).left
    else s.entry j := by
  have hleavers : leavers s.slot (fun i => stallStep (s.slot i)) (s.entryRecord j).slot =
      (s.slot (s.entryRecord j).slot).health.inPair := by
    simp only [leavers, stallStep_eq_ite]
    cases (s.slot (s.entryRecord j).slot).health <;> simp [Health.inPair, SlotState.enterFaulted]
  simp only [stallSlots, changeSlots_entry, hleavers, leaveEntry_eq_left, Bool.and_eq_true]

/-- A stall's state before its slots are faulted: the link STALLED, CYCLE_STALL posted and counted. -/
def State.stalling (s : State) : State :=
  countCycle (fun c => { c with stalls := satInc c.stalls })
    (post 3 (.cycleStall s.activeBank.link.periodMaximum) (s.withCycle { s.cycle with
      link := .stalled, deadlineTimer := none, periodTimer := some s.activeBank.link.periodMaximum }))

theorem stall_eq_stalling (s : State) : stall s = settleLines (stallSlots s.stalling) := rfl

@[simp] theorem State.stalling_readers (s : State) :
    s.stalling.activeBank = s.activeBank ∧ s.stalling.slot = s.slot ∧ s.stalling.entry = s.entry ∧
    s.stalling.entryRecord = s.entryRecord ∧ s.stalling.cycleNumber = s.cycleNumber ∧
    s.stalling.queue = s.queue.post s.cycleNumber 3 (.cycleStall s.activeBank.link.periodMaximum) :=
  ⟨rfl, rfl, rfl, rfl, rfl, rfl⟩

/-- Settles O21: a CLOSED link whose timer stands at the maximum stalls, the records behind one another. -/
theorem stallFaultsSlots : Obligations.StallFaultsSlots := by
  intro s hphase hlink hmaximum hperiod hdeadline judged
  have hsupervised : s.isSupervised = true := by
    simpa [State.isSupervised, hlink] using hmaximum
  have hexec : exec .periodMaximumExpiry s = .next (stall s) := congrArg Host.Outcome.next (if_pos ⟨hphase, hsupervised⟩)
  have hlaws : (stall s).linesObeyLaws := settleLines_obeys _ (by simpa [State.isAwake] using .inl hphase)
  have hslot : ∀ i, (stall s).slot i = stallStep (s.slot i) := fun i => by simp [stall_eq_stalling]
  have hentry : ∀ j, (stall s).entry j = (stallSlots s.stalling).entry j := fun j => by simp [stall_eq_stalling]
  have hmode : (stall s).config.mode = s.config.mode := by simp
  refine ⟨_, hexec, ?_, fun i => ?_, fun j => ?_, ?_, ?_, hlaws, by simp [stall_eq_stalling, State.stalling], by simp,
    by simp, by simp, by simp, by simp⟩
  · rw [stall_cycle, ← hperiod, ← hdeadline]
  · rw [hslot, stallStep_eq_ite]
    rfl
  · rw [hentry, stallSlots_entry]
    simp
  · have htransitions := State.transitions_congr (s := s) (s' := s.stalling) (t := stall s) (t' := stallSlots s.stalling)
      (by simp) (by simp) (fun j => (hentry j).symm) 0 true
    have hqueue : (stall s).queue = (stallSlots s.stalling).queue := by simp [stall_eq_stalling]
    obtain ⟨hbank, hslots, -, -, hnumber, hposted⟩ := s.stalling_readers
    rw [hqueue, stallSlots_queue, htransitions, hbank, hslots, hnumber, hposted, slotRecords_stall]
    rfl
  · obtain ⟨-, hfault⟩ := hlaws
    rw [hfault, hmode]
    refine ⟨fun h => h.2.1, fun h => ⟨by simpa using s.isAwake_iff.mpr (.inl hphase), h, .inr ?_⟩⟩
    simp [stall_cycle]

end Sys2Proof.Machine
end

section
/-! PROOF. The slots at a cycle end: the missing evaluation and the partner check (R28, R38, R39). -/

namespace Sys2Proof.Machine

/-! ## The slots a cycle end leaves -/

/-- A slot after the end-of-cycle evaluation. -/
def State.endedSlot (s : State) (k : Fin 32) : SlotState :=
  partnerStep s.activeBank (fun i => missingStep (s.slotRecord i) (s.slot i)) k

/-- An OPEN that overtakes with nothing pending leaves the slots of the cycle end, their indications clear. -/
theorem takeOpen_slot_opened {s : State} (o : OpenBody) (hlink : s.cycle.link = .opened)
    (hcommit : s.config.pendingCommit = none) (hmode : s.config.pendingMode = none) (k : Fin 32) :
    (takeOpen o s).slot k = { s.endedSlot k with indication := false } := by
  rw [takeOpen_of_none hcommit hmode, beforeStart_opened o hlink]
  simp [State.endedSlot, State.slotRecord]

theorem exec_cycleEnd_slot {s : State} {c : Instr} (h : s.endsCycle c ∨ s.overtakenBy c) :
    ∃ t, exec c s = .next t ∧ (s.endsCycle c → ∀ k, t.slot k = s.endedSlot k) ∧
      (s.overtakenBy c → ∀ k, t.slot k = { s.endedSlot k with indication := false }) := by
  rcases h with hends | hover
  · obtain ⟨e, f, hexec, hkind⟩ := exec_endsCycle hends
    refine ⟨_, hexec, fun _ k => by simp [State.endedSlot, State.slotRecord], fun hover => ?_⟩
    obtain ⟨-, -, -, run, o, rfl, -⟩ := hover
    rcases hkind with ⟨h, -⟩ | ⟨_, h, -⟩ <;> cases h
  · obtain ⟨hlink, hcommit, hmode, run, o, rfl, htakes⟩ := hover
    refine ⟨_, exec_takesOpen htakes, fun hends => ?_, fun _ k => ?_⟩
    · obtain ⟨e, f, -, ⟨h, -⟩ | ⟨_, h, -⟩⟩ := exec_endsCycle hends <;> cases h
    · simpa using takeOpen_slot_opened o hlink hcommit hmode k

/-! ## The missing phase (R28) -/

theorem missingStep_indication (r : SlotRecord) (d : SlotState) : (missingStep r d).indication = d.indication := by
  rw [missingStep_eq]
  split_ifs <;> rfl

theorem missingStep_of_indication {d : SlotState} (h : d.indication = true) (r : SlotRecord) : missingStep r d = d :=
  if_pos h

/-- A slot that the missing phase leaves to be checked had a valid sample, so that phase left it alone. -/
theorem checkable_missingStep (r : SlotRecord) (d : SlotState) :
    (missingStep r d).checkable = true ↔ d.health.inPair = true ∧ d.indication = true := by
  rw [SlotState.checkable, Bool.and_eq_true, missingStep_indication]
  refine and_congr_left fun h => ?_
  rw [missingStep_of_indication h]

/-- Where no partner check is made, a cycle end leaves what the missing phase leaves. -/
theorem endedSlot_of_unchecked {s : State} {i : Fin 32} (hunchecked : ∀ j, s.arePartners i j →
      ¬((s.slot i).health.inPair = true ∧ (s.slot j).health.inPair = true ∧
        (s.slot i).indication = true ∧ (s.slot j).indication = true)) :
    s.endedSlot i = missingStep (s.slotRecord i) (s.slot i) := by
  unfold State.endedSlot partnerStep
  cases hpartner : partnerOfSlot s.activeBank i with
  | none => rfl
  | some j =>
    refine if_neg fun h => ?_
    rw [Bool.and_eq_true, checkable_missingStep, checkable_missingStep] at h
    obtain ⟨⟨hpair, hsampled⟩, hpair', hsampled'⟩ := h
    exact hunchecked j ((partnerOfSlot_eq_some s i j).mp hpartner) ⟨hpair, hpair', hsampled, hsampled'⟩

/-- Settles O30: the missing phase alone decides a slot that no partner check reaches. -/
theorem missingSampleAtCycleEnd : Obligations.MissingSampleAtCycleEnd := by
  intro s c i hends hunchecked d r judged after
  obtain ⟨t, hexec, hended, hover⟩ := exec_cycleEnd_slot hends
  have hafter : s.endedSlot i = after := by
    rw [endedSlot_of_unchecked hunchecked, missingStep_eq]
    rfl
  exact ⟨t, hexec, fun h => hafter ▸ hended h i, fun h => hafter ▸ hover h i⟩

/-! ## The partner phase (R38, R39) -/

theorem State.arePartners.symm {s : State} {i j : Fin 32} (h : s.arePartners i j) : s.arePartners j i := by
  obtain ⟨hne, hi, hj, hij, hji⟩ := h
  exact ⟨hne.symm, hj, hi, hji, hij⟩

theorem wrapMagnitude_comm (p q : Word) : wrapMagnitude p q = wrapMagnitude q p := by
  have hp := p.isLt
  have hq := q.isLt
  simp only [wrapMagnitude, wrapDiff, BitVec.toInt_eq_toNat_cond, BitVec.toNat_sub]
  split_ifs <;> omega

/-- A pair whose slots were both judged on a valid sample is checked: the outcome for slot `i`, `l` the lower of the two. -/
theorem endedSlot_of_checked {s : State} {i j l : Fin 32} {p q pc qc : Word} (hpartners : s.arePartners i j)
    (hl : min i j = l) (hi : (s.slot i).health.inPair = true) (hj : (s.slot j).health.inPair = true)
    (hsampled : (s.slot i).indication = true) (hsampled' : (s.slot j).indication = true)
    (hp : (s.slot i).lastPosition = some (p, pc)) (hq : (s.slot j).lastPosition = some (q, qc)) :
    s.endedSlot i =
      if (s.slotRecord l).mismatchTolerance < wrapMagnitude p q then
        if (s.slot i).mismatch + 1 = (s.slotRecord l).mismatchPersistence ∨
            (s.slot j).mismatch + 1 = (s.slotRecord l).mismatchPersistence then (s.slot i).enterFaulted .mismatch
        else { s.slot i with mismatch := (s.slot i).mismatch + 1 }.follow
      else { s.slot i with mismatch := 0 }.follow := by
  have hpartner := (partnerOfSlot_eq_some s i j).mpr hpartners
  have hchecked : ((s.slot i).checkable && (s.slot j).checkable) = true := by
    simp [SlotState.checkable, hi, hj, hsampled, hsampled']
  simp only [State.endedSlot, partnerStep, hpartner, missingStep_of_indication hsampled,
    missingStep_of_indication hsampled', hchecked, if_true, hp, hq, hl]
  rfl

theorem follow_raised {d : SlotState} (h : d.health.inPair = true) (n : Nat) :
    ({ d with mismatch := n + 1 } : SlotState).follow = { d with mismatch := n + 1, health := .suspect } := by
  rw [follow_of_inPair (by exact h)]
  simp [SlotState.quiet]

theorem follow_cleared {d : SlotState} (h : d.health.inPair = true) :
    ({ d with mismatch := 0 } : SlotState).follow = { d with
      mismatch := 0, health := if d.missing = 0 ∧ d.envelope = 0 ∧ d.rate = 0 then .tracking else .suspect } := by
  rw [follow_of_inPair (by exact h)]
  simp [SlotState.quiet]

/-- Settles O31: both slots of a checked pair are decided by the lower one's tolerance and persistence. -/
theorem partnersCheckedAtCycleEnd : Obligations.PartnersCheckedAtCycleEnd := by
  intro s c i j p q pc qc hends hlt hpartners htracked htracked' hsampled hsampled' hp hq r away faults after
  obtain ⟨t, hexec, hended, hover⟩ := exec_cycleEnd_slot hends
  have hi : (s.slot i).health.inPair = true := (Health.inPair_iff _).mpr htracked
  have hj : (s.slot j).health.inPair = true := (Health.inPair_iff _).mpr htracked'
  have hafter : ∀ d : SlotState, d.health.inPair = true → after d =
      if r.mismatchTolerance < wrapMagnitude p q then
        if faults then d.enterFaulted .mismatch else { d with mismatch := d.mismatch + 1 }.follow
      else { d with mismatch := 0 }.follow := by
    intro d hd
    rw [follow_raised hd, follow_cleared hd]
    rfl
  have hendedi : s.endedSlot i = after (s.slot i) := by
    rw [hafter _ hi]
    exact endedSlot_of_checked hpartners (min_eq_left hlt.le) hi hj hsampled hsampled' hp hq
  have hendedj : s.endedSlot j = after (s.slot j) := by
    rw [hafter _ hj, wrapMagnitude_comm, endedSlot_of_checked hpartners.symm (min_eq_right hlt.le) hj hi hsampled'
      hsampled hq hp]
    simp only [faults, r, or_comm]
  exact ⟨t, hexec, fun h => ⟨hendedi ▸ hended h i, hendedj ▸ hended h j⟩,
    fun h => ⟨hendedi ▸ hover h i, hendedj ▸ hover h j⟩⟩

end Sys2Proof.Machine
end

section
/-! PROOF. The capture line (R92, R93, R195). -/

namespace Sys2Proof.Machine

theorem exec_captureEdge {s : State} (hawake : s.isAwake = true) : exec .captureEdge s = .next (qualifyEdge s) :=
  congrArg Host.Outcome.next (if_pos hawake)

/-- The pins once this tick's sample of CAPTURE has qualified an edge. -/
def Pins.qualified (p : Pins) : Pins := { p with qualifier := .high, capture := true, captureSampled := true }

theorem qualifyEdge_running {s : State} (hphase : s.pins.phase = .running) :
    qualifyEdge s = takeEdge (s.withPins s.pins.qualified) := if_pos hphase

theorem qualifyEdge_initialising {s : State} (hphase : s.pins.phase = .initialising) :
    qualifyEdge s = s.withPins s.pins.qualified := if_neg (by simp [hphase])

/-- In an open cycle an edge fills the capture slot or adds to its extra edges (R92). -/
theorem takeEdge_opened {s : State} (hlink : s.cycle.link = .opened) :
    takeEdge s = s.withCycle { s.cycle with captureSlot := some ((s.cycle.captureSlot.map fun c =>
      { c with extraEdges := satInc c.extraEdges }).getD
        { cycle := s.cycleNumber, ticks := s.cycle.periodTimer.getD 0, extraEdges := 0 }) } := by
  unfold takeEdge
  rw [hlink]
  cases s.cycle.captureSlot <;> rfl

/-- In any other link state it posts a CAPTURE record at once (R93). -/
theorem takeEdge_not_opened {s : State} (hlink : s.cycle.link ≠ .opened) :
    takeEdge s = post 1 (.capture (s.cycle.periodTimer.getD 0) 0 s.cycle.link) s := by
  unfold takeEdge
  split
  · next h => exact absurd h hlink
  · rfl

/-- Settles O22: the edge by the phase and the link state. -/
theorem captureEdgeTaken : Obligations.CaptureEdgeTaken := by
  intro s
  refine ⟨fun hphase hlink current ticks hcurrent hticks => ⟨fun hslot => ?_, fun c hslot => ?_⟩,
    fun hphase hlink => ?_, fun hphase => ?_⟩
  · rw [exec_captureEdge (s.isAwake_iff.mpr (.inl hphase)), qualifyEdge_running hphase, takeEdge_opened (by exact hlink)]
    simp [State.withCycle, State.withPins, State.cycleNumber, Pins.qualified, hslot, hcurrent, hticks]
  · rw [exec_captureEdge (s.isAwake_iff.mpr (.inl hphase)), qualifyEdge_running hphase, takeEdge_opened (by exact hlink)]
    simp [State.withCycle, State.withPins, Pins.qualified, hslot, satInc, satAdd]
  · rw [exec_captureEdge (s.isAwake_iff.mpr (.inl hphase)), qualifyEdge_running hphase, takeEdge_not_opened (by exact hlink)]
    rfl
  · rw [exec_captureEdge (s.isAwake_iff.mpr (.inr hphase)), qualifyEdge_initialising hphase]
    rfl

/-! ## The qualifier -/

theorem exec_captureLineChange {s : State} (hawake : s.isAwake = true) (high : Bool) :
    exec (.captureLineChange high) s = .next (findCapture high s) := congrArg Host.Outcome.next (if_pos hawake)

/-- A level found once the tick has had its sample moves the line alone. -/
theorem findCapture_sampled {s : State} (hsampled : s.pins.captureSampled = true) (high : Bool) :
    findCapture high s = s.withPins { s.pins with capture := high } := if_pos hsampled

/-- A sample that qualifies no edge moves the qualifier alone. -/
theorem findCapture_unqualified {s : State} (hsampled : s.pins.captureSampled = false) {high : Bool}
    (hqualifies : s.pins.qualifier.qualifies high = false) : findCapture high s = s.withPins
      { s.pins with qualifier := s.pins.qualifier.sample high, capture := high, captureSampled := true } := by
  unfold findCapture
  rw [if_neg (by simp [hsampled]), if_neg (by simp [hqualifies])]
  rfl

/-- A sample that qualifies an edge takes it. -/
theorem findCapture_qualified {s : State} (hsampled : s.pins.captureSampled = false) {high : Bool}
    (hqualifies : s.pins.qualifier.qualifies high = true) :
    findCapture high s = qualifyEdge (s.withPins { s.pins with capture := high }) := by
  unfold findCapture
  rw [if_neg (by simp [hsampled]), if_pos hqualifies]

theorem Qualifier.sample_low (q : Qualifier) : q.sample false = .low := by cases q <;> rfl

theorem Qualifier.not_qualifies_low (q : Qualifier) : q.qualifies false = false := by cases q <;> rfl

/-- The level found before is nothing to a qualified edge. -/
theorem qualifyEdge_withCapture (s : State) (high : Bool) :
    qualifyEdge (s.withPins { s.pins with capture := high }) = qualifyEdge s := rfl

theorem step_idle {s : State} (hpending : s.pending = []) : step s = .next (idle s) := by
  unfold step
  rw [hpending]

/-- An edge that is due is put on the queue, no tick passing. -/
theorem idle_edgeDue {s : State} (hawake : s.isAwake = true) (hrelease : s.releaseDue = false) (hedge : s.pins.edgeDue = true) :
    idle s = s.withPending [.captureEdge] := by
  simp [idle, hawake, hrelease, hedge]

/-- With nothing due at once a tick passes. -/
theorem idle_tick {s : State} (hawake : s.isAwake = true) (hrelease : s.releaseDue = false) (hedge : s.pins.edgeDue = false) :
    idle s = (advanceTimers s).withPending (dueCommands (advanceTimers s)) := by
  simp [idle, hawake, hrelease, hedge]

/-- A tick's own sample moves the qualifier unless it qualifies an edge. -/
theorem step_samples {s : State} (hawake : s.isAwake = true) (hpending : s.pending = []) (hrelease : s.releaseDue = false)
    (hsampled : s.pins.captureSampled = false) (hqualifies : s.pins.qualifier.qualifies s.pins.capture = false) :
    ∃ t, step s = .next t ∧ t.pins.qualifier = s.pins.qualifier.sample s.pins.capture := by
  refine ⟨_, (step_idle hpending).trans (congrArg _ (idle_tick hawake hrelease ?_)), ?_⟩
  · simp [Pins.edgeDue, hqualifies]
  · simp [advanceTimers, hsampled]

/-- The tick's own high sample, by the state of the qualifier. -/
theorem step_samples_high {s : State} (hawake : s.isAwake = true) (hpending : s.pending = []) (hrelease : s.releaseDue = false)
    (hsampled : s.pins.captureSampled = false) (hcapture : s.pins.capture = true) :
    ∃ t, step s = .next t ∧ (s.pins.qualifier = .low → t.pins.qualifier = .rising 1) ∧
      (s.pins.qualifier = .rising 1 → t.pins.qualifier = .rising 2) ∧
      (s.pins.qualifier = .high → t.pins.qualifier = .high) := by
  cases hqualifies : s.pins.qualifier.qualifies s.pins.capture
  case false =>
    obtain ⟨t, ht, hqualifier⟩ := step_samples hawake hpending hrelease hsampled hqualifies
    refine ⟨t, ht, ?_, ?_, ?_⟩ <;> intro h <;> rw [hqualifier, h, hcapture] <;> rfl
  case true =>
    refine ⟨_, step_idle hpending, ?_, ?_, ?_⟩ <;> intro h <;> rw [h] at hqualifies <;>
      simp [Qualifier.qualifies, hcapture, Config.captureSamples] at hqualifies

/-- Settles O23: each sample by the state of the qualifier. -/
theorem captureQualifies : Obligations.CaptureQualifies := by
  intro s hawake found
  have hunqualified : ∀ {q : Qualifier} {high : Bool}, s.pins.captureSampled = false → s.pins.qualifier = q →
      q.qualifies high = false →
      exec (.captureLineChange high) s = .next { s with pins := found (q.sample high) high } := by
    rintro q high hsampled rfl hqualifies
    rw [exec_captureLineChange hawake, findCapture_unqualified hsampled hqualifies]
    rfl
  refine ⟨fun hsampled high => ?_, fun hsampled => ⟨?_, fun hq => ?_, fun hq => ?_, fun hq => ?_, fun hq => ?_,
    fun hpending hrelease => ⟨fun ⟨hq, hcapture⟩ => ?_, fun hcapture => ?_, ?_⟩⟩⟩
  · rw [exec_captureLineChange hawake, findCapture_sampled hsampled]
    rfl
  · rw [hunqualified hsampled rfl (Qualifier.not_qualifies_low _), Qualifier.sample_low]
  · exact hunqualified hsampled hq rfl
  · exact hunqualified hsampled hq rfl
  · rw [exec_captureLineChange hawake, exec_captureEdge hawake, findCapture_qualified hsampled (by rw [hq]; rfl),
      qualifyEdge_withCapture]
  · exact hunqualified hsampled hq rfl
  · have hdue : s.pins.edgeDue = true := by
      simp [Pins.edgeDue, hsampled, hq, hcapture, Qualifier.qualifies, Config.captureSamples]
    rw [step_idle hpending, idle_edgeDue hawake hrelease hdue]
    rfl
  · obtain ⟨t, ht, hqualifier⟩ := step_samples hawake hpending hrelease hsampled
      (by rw [hcapture, Qualifier.not_qualifies_low])
    exact ⟨t, ht, by rw [hqualifier, hcapture, Qualifier.sample_low]⟩
  · exact step_samples_high hawake hpending hrelease hsampled

end Sys2Proof.Machine
end

section
/-! PROOF. Management frames, the reads and the writing of the shadow bank (R135 to R138, R157, R158, R162, R167, R171, R172). -/

namespace Sys2Proof.Machine

/-! ## A management frame taken (R157, R158) -/

theorem takeMgmt_short {body : List Byte} (hshort : body.length < 2) (s : State) :
    takeMgmt body s = s.withCommands { s.commands with malformed := satInc s.commands.malformed } := by
  match body, hshort with
  | [], _ => rfl
  | [_], _ => rfl

theorem takeMgmt_accepted {tag kind : Byte} {arguments : List Byte} {s : State}
    (hroom : s.commands.slots.length < 2 ∧ 0 < s.commands.freeCredits) :
    takeMgmt (tag :: kind :: arguments) s = s.withCommands (acceptRequest { tag, kind, arguments } s.commands) :=
  if_pos hroom

theorem takeMgmt_dropped {tag kind : Byte} {arguments : List Byte} {s : State}
    (hfull : 2 ≤ s.commands.slots.length ∨ s.commands.freeCredits = 0) :
    takeMgmt (tag :: kind :: arguments) s =
      (s.withCommands { s.commands with dropped := satInc s.commands.dropped }).withReports
        { s.reports with droppedSinceReport := satInc s.reports.droppedSinceReport } :=
  if_neg (show ¬(s.commands.slots.length < 2 ∧ 0 < s.commands.freeCredits) by omega)

/-- A taken management frame reaches the Command Unit and the count of commands dropped alone. -/
theorem takeMgmt_eq (body : List Byte) (s : State) : takeMgmt body s =
    { s with commands := (takeMgmt body s).commands, reports := (takeMgmt body s).reports } := by
  unfold takeMgmt
  split
  · split_ifs <;> rfl
  · rfl

theorem takeMgmt_withFrames (body : List Byte) (s : State) (p : FramePath) :
    takeMgmt body (s.withFrames p) = (takeMgmt body s).withFrames p := by
  match body with
  | [] | [_] => rfl
  | tag :: kind :: arguments =>
    by_cases hroom : s.commands.slots.length < 2 ∧ 0 < s.commands.freeCredits
    · rw [takeMgmt_accepted hroom, takeMgmt_accepted (by exact hroom)]
      rfl
    · have hfull : 2 ≤ s.commands.slots.length ∨ s.commands.freeCredits = 0 := by omega
      rw [takeMgmt_dropped hfull, takeMgmt_dropped (by exact hfull)]
      rfl

/-- A management frame for the part is taken where it is received, and keeps no place. -/
theorem exec_takesMgmt {s : State} {run : Run} {f : Frame} (hhandles : s.handlesAtCp run) (hf : intactFrame run = some f)
    (hpart : isForPart s.pins.strap f = true) : exec (.frameReceivedCp run) s = .next (takeMgmt f.body s) := by
  have hjudged : judgeRun true run s = s := judgeRun_of_intact hf true s
  have hhandled : ∀ g ∈ s.frames.outbound, g.handled = true := hhandles.2.2.2.1
  have hfree : ∀ t : State, mustHold run t = false := fun t => by
    simp [mustHold, hf, not_open_of_isForPart hpart]
  have htaken : ∀ p, handleOutbound run (s.withFrames p) = ((takeMgmt f.body s).withFrames p, false) := fun p => by
    rw [handleOutbound_of_mgmt hf (by exact hpart), takeMgmt_withFrames]
  rw [exec_frameReceivedCp_handled hhandles, hjudged,
    handleWaiting_split (before := s.frames.outbound) (behind := [{ run, handled := false }]) (by rfl) hhandled,
    handleInTurn_free (hfree _), htaken]
  simp only [handleInTurn, Bool.false_eq_true, if_false, List.append_nil, State.withFrames_frames]
  rw [takeMgmt_eq]
  rfl

/-- Settles O37: a short body, room, and no room. -/
theorem managementFrameTaken : Obligations.ManagementFrameTaken := by
  intro s run f hhandles hf htype hstrap haddress
  have hpart : isForPart s.pins.strap f = true := by
    simp only [isForPart, htype, haddress, decide_true, Bool.true_and, Bool.and_true]
    exact decide_eq_true hstrap
  refine ⟨_, exec_takesMgmt hhandles hf hpart, by rw [takeMgmt_eq], takeMgmt_eq f.body s, fun hshort => ?_,
    fun tag kind arguments hbody => ⟨fun hroom => ?_, fun hfull => ?_⟩⟩
  · rw [takeMgmt_short hshort]
    exact ⟨rfl, rfl⟩
  · rw [hbody, takeMgmt_accepted hroom]
    exact ⟨rfl, rfl⟩
  · rw [hbody, takeMgmt_dropped hfull]
    exact ⟨rfl, rfl⟩

/-! ## What is refused before the owner (R162) -/

section
variable {s : State} {q : Request} {before after : List Holding}

/-- A request of a known kind whose arguments do not fit is refused whatever carries its kind out. -/
theorem State.isNext.executeAs_misfit (h : s.isNext q before after) {k : RequestKind} (hkind : q.kind = k.code)
    (hmisfit : lengthFits k q.arguments = false) (run : Request → State → State) :
    executeAs (some k) run s = refuse q .badValue s := by
  simp [executeAs, h.running, h.next_eq, hkind, hmisfit]

theorem State.isNext.executeAs_unknown (h : s.isNext q before after) (hkind : requestKindOf q.kind = none)
    (run : Request → State → State) : executeAs none run s = run q s := by
  simp [executeAs, h.running, h.next_eq, hkind]

/-- The command of a known kind carries it out as `executeAs` says. -/
theorem exec_commandFor {b : Byte} {k : RequestKind} (hkind : requestKindOf b = some k) :
    ∃ run, ∀ s, exec (commandFor b) s = .next (executeAs (some k) run s) := by
  cases k <;> simp only [commandFor, hkind] <;> exact ⟨_, fun _ => rfl⟩

/-- A response that completes the request, and changes nothing else. -/
theorem State.isNext.complete_eq (h : s.isNext q before after) (outcome : RequestOutcome) (reason : Reason)
    (data : List Byte) : complete q outcome reason data s = { s with
      commands := s.commands.answered before after [{ tag := q.tag, kind := q.kind, outcome, reason, data }] } := by
  rw [← h.finish_respond]
  rfl

end

/-- Settles O38: the two tests before the owner. -/
theorem refusedBeforeOwner : Obligations.RefusedBeforeOwner := by
  intro s q before after hnext
  refine ⟨fun hunknown => ?_, fun k hkind hmisfit => ?_⟩
  · exact hnext.next_eq_refused (hnext.executeAs_unknown hunknown runUnknown)
  · obtain ⟨run, hrun⟩ := exec_commandFor hkind
    rw [hrun, hnext.executeAs_misfit (kind_eq_code hkind) hmisfit]
    exact hnext.next_eq_refused rfl

/-! ## The reads (R138, R167, R171, R172) -/

theorem linesByte_eq (l : Lines) : linesByte l = BitVec.ofNat 8 (l.triggers.toNat + if l.fault = true then 16 else 0) := by
  have htriggers : l.triggers.toNat < 16 := l.triggers.isLt
  apply BitVec.eq_of_toNat_eq
  cases hfault : l.fault <;> simp [linesByte, hfault]

/-- The data of READ_STATUS, its counters in one list. -/
theorem statusData_eq (s : State) : statusData s =
    [s.config.mode.code, s.cycle.link.code,
      BitVec.ofNat 8 (s.lines.triggers.toNat + if s.lines.fault = true then 16 else 0),
      boolByte s.config.pendingCommit.isSome, pendingModeCode s.config.pendingMode] ++
    bytes16 s.config.generation ++ [byteOf s.queue.records.length] ++ bytes16 s.queue.lost ++
    [s.cycle.counters.opensTaken, s.cycle.counters.overtaken, s.cycle.counters.deadlineEnds, s.cycle.counters.lateCloses,
      s.cycle.counters.shortPeriods, s.cycle.counters.skips, s.cycle.counters.stalls, s.cycle.counters.malformedLink,
      s.channels.counters.unmapped, s.channels.counters.stale, s.channels.counters.kindMismatch,
      s.channels.counters.duplicate, s.channels.counters.malformed, s.frames.counters.badOutbound,
      s.frames.counters.badInbound, s.frames.counters.dropsOutbound, s.frames.counters.dropsInbound].flatMap bytes16 ++
    bytes32 s.frames.counters.forwardedOutbound ++ bytes32 s.frames.counters.forwardedInbound ++
    bytes16 s.commands.dropped ++ bytes16 s.commands.malformed := by
  simp [statusData, linesByte_eq, CycleCounters.data, SampleCounters.data, FrameCounters.data]

theorem SlotState.data_eq (d : SlotState) : d.data =
    [d.health.name.code, d.health.causeCode, byteOf d.missing, byteOf d.envelope, byteOf d.rate, byteOf d.mismatch,
      byteOf d.goodRun, byteOf d.hold, boolByte d.lastPosition.isSome] ++
    bytes16 (d.lastPosition.getD (0, 0)).1 ++ bytes16 (d.lastPosition.getD (0, 0)).2 ++ bytes32 d.validTotal ++
    [boolByte d.indication] := by
  cases h : d.lastPosition <;> simp [SlotState.data, h]

/-- The bank a selector other than 0 and 1 names is none. -/
theorem bankSelected_eq_none {selector : Byte} (h : 2 ≤ selector.toNat) (s : State) : bankSelected s selector = none := by
  unfold bankSelected
  rw [if_neg (by rintro rfl; simp at h), if_neg (by rintro rfl; simp at h)]

theorem tableOf_eq_none {table : Byte} (h : 3 ≤ table.toNat) : tableOf table = none := by
  unfold tableOf
  rw [if_neg (by rintro rfl; simp at h), if_neg (by rintro rfl; simp at h), if_neg (by rintro rfl; simp at h)]

/-- Whichever bank is selected, a byte that names no table is refused as well. -/
theorem runReadEntry_badValue {q : Request} {s : State} {selector table index : Byte}
    (harg : q.arguments = [selector, table, index]) (h : 2 ≤ selector.toNat ∨ 3 ≤ table.toNat) :
    runReadEntry q s = refuse q .badValue s := by
  rcases h with h | h
  · simp [runReadEntry, harg, bankSelected_eq_none h]
  · simp [runReadEntry, harg, tableOf_eq_none h]

theorem runReadEntry_of {q : Request} {s : State} {selector table index : Byte} {name : BankName} {isActive : Bool}
    {t : Table} (harg : q.arguments = [selector, table, index])
    (hbank : bankSelected s selector = some (name, isActive)) (htable : tableOf table = some t) :
    (∀ data, entryData s name isActive t index = some data →
      runReadEntry q s = done q ([name.code, table, index] ++ data) s) ∧
    (entryData s name isActive t index = none → runReadEntry q s = refuse q .badIndex s) := by
  simp only [runReadEntry, harg, hbank, htable]
  exact ⟨fun data h => by rw [h], fun h => by rw [h]⟩

/-- The bank a selector names, with whether it is the active one. -/
theorem bankSelected_of {s : State} {selector : Byte} {name : BankName}
    (h : (selector = 0 ∧ name = s.config.active) ∨ (selector = 1 ∧ name = s.config.active.other)) :
    bankSelected s selector = some (name, decide (selector = 0)) := by
  rcases h with ⟨rfl, rfl⟩ | ⟨rfl, rfl⟩ <;> rfl

/-- Settles O39: each read from the data it carries. -/
theorem readsAnswered : Obligations.ReadsAnswered := by
  intro s q before after hnext answer
  have hdone : ∀ {data : List Byte} {t : State}, t = done q data s →
      (.next t : Host.Outcome State Fault Refusal) = answer (q.done data) :=
    fun h => by rw [h, hnext.done_eq _ rfl]
  have hrefused : ∀ {reason : Reason} {t : State}, t = refuse q reason s →
      (.next t : Host.Outcome State Fault Refusal) = answer (q.refused reason) := hnext.next_eq_refused
  refine ⟨fun hkind harg => ?_, fun index hkind harg => ?_, fun selector table index hkind harg => ?_⟩
  · have hexec : exec .readStatus s = .next (done q (statusData s) s) :=
      congrArg _ (hnext.executeAs_eq hkind (by simp [lengthFits, harg]) runReadStatus)
    rw [hexec, hdone rfl, statusData_eq, pendingModeCode_eq] <;> rfl
  · have hexec : exec .readChannel s = .next (runReadChannel q s) :=
      congrArg _ (hnext.executeAs_eq hkind (by simp [lengthFits, harg]) runReadChannel)
    refine ⟨fun i hi => ?_, fun hbeyond => ?_⟩ <;> rw [hexec]
    · have hrun : runReadChannel q s = done q (s.slot i).data s := by
        simp [runReadChannel, harg, indexOf_eq_some_iff.mpr hi]
      rw [hdone hrun, SlotState.data_eq]
    · exact hrefused (by simp [runReadChannel, harg, indexOf_eq_none_iff.mpr hbeyond])
  · have hexec : exec .readEntry s = .next (runReadEntry q s) :=
      congrArg _ (hnext.executeAs_eq hkind (by simp [lengthFits, harg]) runReadEntry)
    rw [hexec]
    refine ⟨fun h => hrefused (runReadEntry_badValue harg h), fun name hname => ?_⟩
    have hbank := bankSelected_of hname
    refine ⟨?_, ?_, ?_, ?_⟩
    · rintro i rfl hi
      exact hdone ((runReadEntry_of harg hbank rfl).1 _ (by simp [entryData, indexOf_eq_some_iff.mpr hi]))
    · rintro i rfl hi
      have hdata : entryData s name (decide (selector = 0)) .entry index = some ((s.config.bank name).entries[i].content ++
          if selector = 0 then [(s.entry i).condition.code, (s.entry i).latch.code] else []) := by
        simp [entryData, indexOf_eq_some_iff.mpr hi]
      rw [List.append_assoc]
      exact hdone ((runReadEntry_of harg hbank rfl).1 _ hdata)
    · rintro rfl rfl
      exact hdone ((runReadEntry_of harg hbank rfl).1 _ rfl)
    · rintro (⟨rfl, h⟩ | ⟨rfl, h⟩ | ⟨rfl, h⟩)
      · exact hrefused ((runReadEntry_of harg hbank rfl).2 (by simp [entryData, indexOf_eq_none_iff.mpr h]))
      · exact hrefused ((runReadEntry_of harg hbank rfl).2 (by simp [entryData, indexOf_eq_none_iff.mpr h]))
      · exact hrefused ((runReadEntry_of harg hbank rfl).2 (if_neg h))

/-! ## The writing of the shadow bank (R135 to R137) -/

section
variable {q : Request} {s : State} {t index : Byte} {content : List Byte} {table : Table}

theorem runWriteShadow_badIndex (harg : q.arguments = t :: index :: content) (htable : tableOf t = some table)
    (hindex : table.size ≤ index.toNat) : runWriteShadow q s = refuse q .badIndex s := by
  simp [runWriteShadow, harg, htable, hindex]

theorem runWriteShadow_pending (harg : q.arguments = t :: index :: content) (htable : tableOf t = some table)
    (hindex : index.toNat < table.size) (hpending : s.config.pendingCommit.isSome = true) :
    runWriteShadow q s = refuse q .commitPending s := by
  simp [runWriteShadow, harg, htable, Nat.not_le.mpr hindex, hpending]

/-- With the index in the table and no commit pending, the content decides. -/
theorem runWriteShadow_content (harg : q.arguments = t :: index :: content) (htable : tableOf t = some table)
    (hindex : index.toNat < table.size) (hnone : s.config.pendingCommit = none) :
    (∀ b, writeRecord s.shadowBank table index content = some b →
      runWriteShadow q s = done q [] (s.withShadowBank b)) ∧
    (writeRecord s.shadowBank table index content = none → runWriteShadow q s = refuse q .badValue s) := by
  simp only [runWriteShadow, harg, htable, if_neg (Nat.not_le.mpr hindex), hnone, Option.isSome_none, Bool.false_eq_true,
    if_false]
  exact ⟨fun b h => by rw [h], fun h => by rw [h]⟩

end

/-- Settles O40: the tests of R135 in their order. -/
theorem writeShadowReplacesRecord : Obligations.WriteShadowReplacesRecord := by
  intro s q before after t index content table hnext hkind harg htable hfits answer
  have hexec : exec .writeShadow s = .next (runWriteShadow q s) :=
    congrArg _ (hnext.executeAs_eq hkind hfits runWriteShadow)
  rw [hexec]
  refine ⟨fun hindex => hnext.next_eq_refused (runWriteShadow_badIndex harg htable hindex),
    fun hindex hpending => hnext.next_eq_refused (runWriteShadow_pending harg htable hindex hpending),
    fun hindex hnone => ?_⟩
  obtain ⟨hwritten, hrefused⟩ := runWriteShadow_content harg htable hindex hnone
  have hdone : ∀ {b : Bank}, writeRecord s.shadowBank table index content = some b →
      (.next (runWriteShadow q s) : Host.Outcome State Fault Refusal) =
        .next ((answer (q.done [])).withShadowBank b) := fun h => by
    rw [hwritten _ h, hnext.done_eq [] (t := s.withShadowBank _) rfl]
    rfl
  refine ⟨?_, ?_, ?_⟩
  · rintro i rfl hi
    refine ⟨fun r hr => hdone ?_, fun hr => hnext.next_eq_refused (hrefused ?_)⟩ <;>
      simp [writeRecord, indexOf_eq_some_iff.mpr hi, hr]
  · rintro i rfl hi
    refine ⟨fun r hr => hdone ?_, fun hr => hnext.next_eq_refused (hrefused ?_)⟩ <;>
      simp [writeRecord, indexOf_eq_some_iff.mpr hi, hr]
  · rintro rfl
    refine ⟨fun r hr => hdone ?_, fun hr => hnext.next_eq_refused (hrefused ?_)⟩ <;> simp [writeRecord, hr]

/-- Both banks once the shadow bank is made equal to the active one (R137). -/
theorem State.withShadowBank_active_banks (s : State) :
    (s.withShadowBank s.activeBank).config.bankA = s.activeBank ∧
    (s.withShadowBank s.activeBank).config.bankB = s.activeBank := by
  simp only [State.withShadowBank_config, State.activeBank]
  cases h : s.config.active <;> simp [ConfigController.withBank, ConfigController.bank, BankName.other]

theorem ConfigController.withBank_eq (c : ConfigController) (n : BankName) (b : Bank) : c.withBank n b =
    { c with bankA := (c.withBank n b).bankA, bankB := (c.withBank n b).bankB } := by
  cases n <;> rfl

/-- Settles O41: the refusal, and the copy. -/
theorem syncShadowCopiesActive : Obligations.SyncShadowCopiesActive := by
  intro s q before after hnext hkind harg
  have hexec : exec .syncShadow s = .next (runSyncShadow q s) :=
    congrArg _ (hnext.executeAs_eq hkind (by simp [lengthFits, harg]) runSyncShadow)
  rw [hexec]
  refine ⟨fun hpending => hnext.next_eq_refused (if_pos hpending), fun hnone => ?_⟩
  have hrun : runSyncShadow q s = done q [] (s.withShadowBank s.activeBank) := if_neg (by simp [hnone])
  obtain ⟨ha, hb⟩ := s.withShadowBank_active_banks
  refine ⟨_, rfl, ?_⟩
  rw [hrun, hnext.done_eq [] (t := s.withShadowBank s.activeBank) rfl]
  refine ⟨ha, hb, ?_⟩
  exact congrArg (fun c => ({ s with commands := s.commands.answered before after [q.done []], config := c } : State))
    (s.config.withBank_eq s.config.active.other s.activeBank)

/-! ## The windows of an entry (R51, R53) -/

/-- The span of a window widened at both ends, when it does not close upon itself. -/
theorem span_of_widened (lo hi : Word) {n : Nat} (h : (hi - lo).toNat + 2 * n ≤ 65535) :
    (hi + BitVec.ofNat 16 n - (lo - BitVec.ofNat 16 n)).toNat = (hi - lo).toNat + 2 * n := by
  simp only [BitVec.toNat_sub, BitVec.toNat_add, BitVec.toNat_ofNat] at h ⊢
  omega

/-- A position's distance from the widened window's first end, when it lies in the core window. -/
theorem offset_of_widened (lo hi p : Word) {n : Nat} (h : (hi - lo).toNat + 2 * n ≤ 65535)
    (hp : (p - lo).toNat ≤ (hi - lo).toNat) : (p - (lo - BitVec.ofNat 16 n)).toNat = (p - lo).toNat + n := by
  simp only [BitVec.toNat_sub, BitVec.toNat_ofNat] at h hp ⊢
  omega

/-- Settles O32: the widened window's span and first end. -/
theorem extendedWindowContainsCore : Obligations.ExtendedWindowContainsCore := by
  intro r p hspan
  have hcore : r.inCore p = true ↔ (p - r.lo).toNat ≤ (r.hi - r.lo).toNat := by
    simp [EntryRecord.inCore, inWindow]
  have hextended : r.inExtended p = true ↔
      (p - (r.lo - BitVec.ofNat 16 r.hysteresis)).toNat ≤ (r.hi - r.lo).toNat + 2 * r.hysteresis := by
    simp [EntryRecord.inExtended, inWindow, span_of_widened r.lo r.hi hspan]
  refine ⟨hcore, hextended, fun hin => ?_, fun hzero => ?_⟩
  · have hp := hcore.mp hin
    rw [hextended, offset_of_widened r.lo r.hi p hspan hp]
    omega
  · rw [hextended, hcore, hzero]
    simp

end Sys2Proof.Machine
end

section
/-! PROOF. The validation of a bank by the 15 checks, and COMMIT (R140, R141, R169). -/

namespace Sys2Proof.Machine

/-! ## The checks of an entry and of the link record (R141) -/

/-- The checks of an event entry record. -/
def entryChecks (b : Bank) (i : Fin 64) : List (Nat × Bool) :=
  let r := b.entries[i]
  let q := b.slots[r.slot]
  if r.used then
    [(1, r.inRange),
     (11, q.configured),
     (12, decide (r.lo.toNat % 2 ^ (16 - q.resolution) = 0 ∧ r.hi.toNat % 2 ^ (16 - q.resolution) = 0)),
     (13, decide ((r.hi - r.lo).toNat + 2 * r.hysteresis ≤ 65535))]
  else [(1, r.inRange)]

theorem entryFailure_eq (b : Bank) (i : Fin 64) : entryFailure b i = firstFailure (entryChecks b i) := by
  unfold entryFailure entryChecks
  dsimp only
  split_ifs <;> rfl

theorem entryChecks_sorted (b : Bank) (i : Fin 64) : (entryChecks b i).Pairwise fun a b => a.1 < b.1 := by
  unfold entryChecks
  dsimp only
  split_ifs <;> simp

/-- The checks of an entry record pass, code by code, as `Bank.entryPasses` says. -/
theorem entryPasses_iff (b : Bank) (i : Fin 64) (code : Nat) :
    b.entryPasses i code ↔ codePasses (entryChecks b i) code := by
  unfold Bank.entryPasses entryChecks
  cases hused : b.entries[i].used with
  | false =>
    simp only [hused, Bool.false_eq_true, if_false, codePasses_cons, codePasses_nil]
    by_cases hone : code = 1
    · simp [hone]
    · simp [hone, Ne.symm hone]
  | true =>
    simp only [hused, if_true, codePasses_cons, codePasses_nil, true_implies]
    match code with
    | 0 | 1 | 2 | 3 | 4 | 5 | 6 | 7 | 8 | 9 | 10 | 11 | 13 => simp
    | 12 => simp [Nat.dvd_iff_mod_eq_zero]
    | n + 14 => simp

/-- The checks of a link record. -/
def linkChecks (l : LinkRecord) : List (Nat × Bool) :=
  [(1, l.inRange),
   (14, decide (l.periodMinimum ≠ 0 ∧ l.periodMaximum ≠ 0 → l.periodMinimum < l.periodMaximum)),
   (15, decide (l.periodMaximum ≠ 0 → l.closeDeadline.toNat < l.periodMaximum.toNat))]

theorem linkFailure_eq (l : LinkRecord) : linkFailure l = firstFailure (linkChecks l) := rfl

theorem linkChecks_sorted (l : LinkRecord) : (linkChecks l).Pairwise fun a b => a.1 < b.1 := by
  simp [linkChecks]

/-- The checks of the link record pass, code by code, as `Bank.linkPasses` says. -/
theorem linkPasses_iff (b : Bank) (code : Nat) : b.linkPasses code ↔ codePasses (linkChecks b.link) code := by
  simp only [Bank.linkPasses, linkChecks, codePasses_cons, codePasses_nil]
  match code with
  | 0 | 1 | 2 | 3 | 4 | 5 | 6 | 7 | 8 | 9 | 10 | 11 | 12 | 13 => simp
  | 14 | 15 => simp [imp_iff_not_or, or_assoc]
  | n + 16 => simp

/-! ## One record: none of its checks fails, or the lowest code that does -/

theorem slotFailure_eq_some_iff (b : Bank) (strap : Strap) (i : Fin 32) (code : Nat) :
    slotFailure b strap i = some code ↔
      (∀ c, c < code → b.slotPasses strap i c) ∧ ¬b.slotPasses strap i code := by
  simp only [slotFailure_eq, firstFailure_eq_some_iff (slotChecks_sorted b strap i), slotPasses_iff]

theorem entryFailure_eq_none_iff (b : Bank) (i : Fin 64) : entryFailure b i = none ↔ ∀ code, b.entryPasses i code := by
  simp only [entryFailure_eq, firstFailure_eq_none_iff, entryPasses_iff]

theorem entryFailure_eq_some_iff (b : Bank) (i : Fin 64) (code : Nat) :
    entryFailure b i = some code ↔ (∀ c, c < code → b.entryPasses i c) ∧ ¬b.entryPasses i code := by
  simp only [entryFailure_eq, firstFailure_eq_some_iff (entryChecks_sorted b i), entryPasses_iff]

theorem linkFailure_eq_none_iff (b : Bank) : linkFailure b.link = none ↔ ∀ code, b.linkPasses code := by
  simp only [linkFailure_eq, firstFailure_eq_none_iff, linkPasses_iff]

theorem linkFailure_eq_some_iff (b : Bank) (code : Nat) :
    linkFailure b.link = some code ↔ (∀ c, c < code → b.linkPasses c) ∧ ¬b.linkPasses code := by
  simp only [linkFailure_eq, firstFailure_eq_some_iff (linkChecks_sorted b.link), linkPasses_iff]

/-! ## A bank: the first offending record -/

/-- The first failure among the records of a table, with its index and code. -/
def tableFailure {n : Nat} (table : Table) (failure : Fin n → Option Nat) : Option (Table × Nat × Nat) :=
  Fin.findSome? fun i => (failure i).map fun c => (table, i.val, c)

theorem tableFailure_eq_none_iff {n : Nat} {table : Table} {failure : Fin n → Option Nat} :
    tableFailure table failure = none ↔ ∀ i, failure i = none := by
  simp [tableFailure]

theorem tableFailure_eq_some_iff {n : Nat} {table named : Table} {failure : Fin n → Option Nat} {index code : Nat} :
    tableFailure table failure = some (named, index, code) ↔
      table = named ∧ ∃ i : Fin n, i.val = index ∧ failure i = some code ∧ ∀ j < i, failure j = none := by
  simp only [tableFailure, Fin.findSome?_eq_some_iff, Option.map_eq_some_iff, Prod.mk.injEq, Option.map_eq_none_iff]
  constructor
  · rintro ⟨i, ⟨c, hi, htable, hindex, rfl⟩, hbefore⟩
    exact ⟨htable, i, hindex, hi, hbefore⟩
  · rintro ⟨htable, i, hindex, hi, hbefore⟩
    exact ⟨i, ⟨code, hi, htable, hindex, rfl⟩, hbefore⟩

/-- The slots come before the entries, and the entries before the link record. -/
theorem validate_eq (b : Bank) (strap : Strap) : validate b strap =
    ((tableFailure .slot (slotFailure b strap)).or (tableFailure .entry (entryFailure b))).or
      ((linkFailure b.link).map fun c => (Table.link, 0, c)) := by
  unfold validate tableFailure
  rw [← Fin.findSome?_eq_findSome?_finRange, ← Fin.findSome?_eq_findSome?_finRange]
  cases Fin.findSome? fun i => (slotFailure b strap i).map fun c => (Table.slot, i.val, c) <;>
    cases Fin.findSome? fun i => (entryFailure b i).map fun c => (Table.entry, i.val, c) <;> rfl

/-- The record and the code that validation names, table by table. -/
theorem validate_eq_some_iff (b : Bank) (strap : Strap) (table : Table) (index code : Nat) :
    validate b strap = some (table, index, code) ↔
      (table = .slot ∧ ∃ i : Fin 32, i.val = index ∧ slotFailure b strap i = some code ∧
        ∀ j < i, slotFailure b strap j = none) ∨
      (table = .entry ∧ (∀ i, slotFailure b strap i = none) ∧ ∃ i : Fin 64, i.val = index ∧
        entryFailure b i = some code ∧ ∀ j < i, entryFailure b j = none) ∨
      (table = .link ∧ (∀ i, slotFailure b strap i = none) ∧ (∀ i, entryFailure b i = none) ∧ 0 = index ∧
        linkFailure b.link = some code) := by
  simp only [validate_eq, Option.or_eq_some_iff, Option.or_eq_none_iff, tableFailure_eq_none_iff, tableFailure_eq_some_iff,
    Option.map_eq_some_iff, Prod.mk.injEq]
  cases table <;> simp [and_assoc, and_comm, and_left_comm]

/-- A statement about the record of a table whose index is that of `i` is one about `i`. -/
theorem exists_val_eq_iff {n : Nat} (i : Fin n) (p : Fin n → Prop) : (∃ j : Fin n, j.val = i.val ∧ p j) ↔ p i := by
  constructor
  · rintro ⟨j, hj, hp⟩
    exact Fin.ext hj ▸ hp
  · exact fun hp => ⟨i, rfl, hp⟩

/-! ## COMMIT (R140, R169) -/

section
variable {q : Request} {s : State}

theorem runCommit_pending (hpending : s.config.pendingCommit.isSome = true) :
    runCommit q s = refuse q .commitPending s := if_pos hpending

theorem runCommit_invalid (hnone : s.config.pendingCommit = none) {table : Table} {index code : Nat}
    (hinvalid : validate s.shadowBank s.pins.strap = some (table, index, code)) :
    runCommit q s = complete q .refused .invalidBank [table.code, byteOf index, byteOf code] s := by
  simp [runCommit, hnone, hinvalid]

theorem runCommit_valid (hnone : s.config.pendingCommit = none) (hvalid : validate s.shadowBank s.pins.strap = none) :
    runCommit q s = suspendRequest (s.withConfig { s.config with pendingCommit := some q.tag }) := by
  simp [runCommit, hnone, hvalid]

end

/-- Settles O42: the three outcomes, and what validation says, table by table. -/
theorem commitValidatesShadow : Obligations.CommitValidatesShadow := by
  intro s q before after hnext hkind harg
  have hexec : exec .commit s = .next (runCommit q s) :=
    congrArg _ (hnext.executeAs_eq hkind (by simp [lengthFits, harg]) runCommit)
  refine ⟨fun hpending => ?_, fun hnone table index code hinvalid => ?_, fun hnone hvalid => ?_, ?_⟩
  · rw [hexec]
    exact hnext.next_eq_refused (runCommit_pending hpending)
  · rw [hexec, runCommit_invalid hnone hinvalid, hnext.complete_eq]
    rfl
  · rw [hexec, runCommit_valid hnone hvalid, hnext.suspendRequest_eq (by rfl)]
    rfl
  · refine ⟨?_, fun i code => ?_, fun i code => ?_, fun code => ?_⟩
    · simp only [validate_eq_none_iff, slotFailure_eq_none_iff, entryFailure_eq_none_iff, linkFailure_eq_none_iff]
    all_goals
      simp only [validate_eq_some_iff, exists_val_eq_iff, slotFailure_eq_none_iff, slotFailure_eq_some_iff,
        entryFailure_eq_none_iff, entryFailure_eq_some_iff, linkFailure_eq_some_iff, reduceCtorEq, false_and, true_and,
        false_or, or_false]
    · exact ⟨fun ⟨h, hbefore⟩ => ⟨hbefore, h⟩, fun ⟨hbefore, h⟩ => ⟨h, hbefore⟩⟩
    · exact ⟨fun ⟨hslots, h, hbefore⟩ => ⟨hslots, hbefore, h⟩, fun ⟨hslots, hbefore, h⟩ => ⟨hslots, h, hbefore⟩⟩

end Sys2Proof.Machine
end

section
/-! PROOF. The taking of a SAMPLE: its correction, its classification, its frame, and the entries it is delivered to (R2 to R17,
R53 to R61). -/

namespace Sys2Proof.Machine

/-! ## Correction (R10 to R13) -/

theorem truncateTo_toNat (resolution : Nat) (p : Word) :
    (truncateTo resolution p).toNat = p.toNat / 2 ^ (16 - resolution) * 2 ^ (16 - resolution) := by
  have hle : p.toNat / 2 ^ (16 - resolution) * 2 ^ (16 - resolution) ≤ p.toNat := Nat.div_mul_le_self _ _
  have hlt : p.toNat < 2 ^ 16 := p.isLt
  simp only [truncateTo, BitVec.toNat_ofNat]
  exact Nat.mod_eq_of_lt (Nat.lt_of_le_of_lt hle hlt)

/-- Truncation rounds down to a multiple of its step. -/
theorem truncateTo_rounds (resolution : Nat) (p : Word) :
    (truncateTo resolution p).toNat % 2 ^ (16 - resolution) = 0 ∧ (truncateTo resolution p).toNat ≤ p.toNat ∧
    p.toNat < (truncateTo resolution p).toNat + 2 ^ (16 - resolution) := by
  rw [truncateTo_toNat]
  refine ⟨Nat.mul_mod_left _ _, Nat.div_mul_le_self _ _, ?_⟩
  exact Nat.lt_div_mul_add (Nat.two_pow_pos _)

theorem saturate_eq (x : Int) : saturate x = if x < -32768 then -32768 else if 32767 < x then 32767 else x := by
  unfold saturate
  split_ifs <;> omega

theorem saturate_bounds (x : Int) : -32768 ≤ saturate x ∧ saturate x ≤ 32767 := by
  unfold saturate
  omega

/-- Division by 1024 rounding toward zero. -/
theorem tdiv_1024 (x : Int) : x.tdiv 1024 = if 0 ≤ x then x / 1024 else -(-x / 1024) := by
  split_ifs with hsign
  · exact Int.tdiv_eq_ediv_of_nonneg hsign
  · rw [← Int.tdiv_eq_ediv_of_nonneg (by omega), Int.neg_tdiv, neg_neg]

theorem squares_toNat (a b : Int) : (a * a + b * b).toNat = a.natAbs ^ 2 + b.natAbs ^ 2 := by
  have hnonneg : 0 ≤ a * a + b * b := add_nonneg (mul_self_nonneg a) (mul_self_nonneg b)
  zify
  rw [Int.toNat_of_nonneg hnonneg, sq_abs, sq_abs, sq, sq]

theorem envelopeMetric_eq (a b : Int) : envelopeMetric a b = (a.natAbs ^ 2 + b.natAbs ^ 2) / 65536 := by
  rw [envelopeMetric, squares_toNat]

/-- Of two components of at most 32768 in magnitude the metric is at most 32768, and that only when both are as large. -/
theorem metric_bound {x y : Nat} (hx : x ≤ 32768) (hy : y ≤ 32768) :
    (x ^ 2 + y ^ 2) / 65536 ≤ 32768 ∧ ((x ^ 2 + y ^ 2) / 65536 = 32768 ↔ x = 32768 ∧ y = 32768) := by
  have hsquare : ∀ {z : Nat}, z ≤ 32768 → z ^ 2 ≤ 32768 ^ 2 := fun h => Nat.pow_le_pow_left h 2
  have hless : ∀ {z : Nat}, z ≤ 32768 → z ≠ 32768 → z ^ 2 < 32768 ^ 2 :=
    fun h hne => Nat.pow_lt_pow_left (Nat.lt_of_le_of_ne h hne) (by decide)
  have hx2 := hsquare hx
  have hy2 := hsquare hy
  refine ⟨by omega, fun heq => ⟨by_contra fun hne => ?_, by_contra fun hne => ?_⟩, ?_⟩
  · have := hless hx hne
    omega
  · have := hless hy hne
    omega
  · rintro ⟨rfl, rfl⟩
    norm_num

/-- Settles O24: the truncation, the two components, and the metric. -/
theorem correctionFormed : Obligations.CorrectionFormed := by
  intro r m arrivedRewritten held scaled a b
  refine ⟨fun _ _ => ?_, ?_, ?_, ?_, fun hma hma' hmb hmb' => ?_⟩
  · by_cases h : arrivedRewritten
    · have hposition : correctedPosition r m = truncateTo r.resolution m.position := congrArg _ (if_pos h)
      simpa only [hposition, if_pos h] using truncateTo_rounds r.resolution m.position
    · have hposition : correctedPosition r m = truncateTo r.resolution (m.position + r.positionOffset) :=
        congrArg _ (if_neg h)
      have hrounds := truncateTo_rounds r.resolution (m.position + r.positionOffset)
      rw [BitVec.toNat_add] at hrounds
      simpa only [hposition, if_neg h] using hrounds
  · simp only [a, correctedA, isRewritten, saturate_eq, held, arrivedRewritten]
  · simp only [b, correctedB, isRewritten, saturate_eq, tdiv_1024, held, scaled, arrivedRewritten]
  · rw [envelopeMetric_eq]
    exact ⟨Nat.div_mul_le_self _ _, by omega⟩
  · have ha : -32768 ≤ a ∧ a ≤ 32767 := by
      simp only [a, correctedA]
      split_ifs
      · exact ⟨hma, hma'⟩
      · exact saturate_bounds _
    have hb : -32768 ≤ b ∧ b ≤ 32767 := by
      simp only [b, correctedB]
      split_ifs
      · exact ⟨hmb, hmb'⟩
      · exact saturate_bounds _
    clear_value a b
    obtain ⟨hbound, hextreme⟩ := metric_bound (x := a.natAbs) (y := b.natAbs) (by omega) (by omega)
    rw [envelopeMetric_eq, hextreme]
    exact ⟨ha, hb, hbound, by omega⟩

/-! ## A frame admitted to the inbound relay buffer (R185) -/

/-- The inbound side once a forwarded frame has been admitted, or dropped and counted. -/
def FramePath.admitted (p : FramePath) (bytes : List Byte) : FramePath :=
  if p.forwardedCount < 6 ∧ p.inbound.length < 8 then { p with inbound := p.inbound ++ [{ bytes, cls := .forwarded }] }
  else { p with counters := { p.counters with dropsInbound := satInc p.counters.dropsInbound } }

theorem admitInbound_eq (bytes : List Byte) (s : State) : admitInbound bytes s = s.withFrames (s.frames.admitted bytes) := by
  unfold FramePath.admitted
  split_ifs with hroom
  · exact admitInbound_of_room hroom bytes
  · exact admitInbound_of_full hroom bytes

/-! ## Matching and classification (R2, R4) -/

/-- What R2 asks of the slot a key maps to. -/
def Bank.mapsTo (b : Bank) (strap : Strap) (address : Byte) (subchannel : Fin 4) (i : Fin 32) : Prop :=
  address ≠ 0 ∧ address.toNat ≤ 31 ∧ address ≠ strapByte strap ∧ b.slots[i].configured = true ∧
  b.slots[i].node = address.toNat ∧ b.slots[i].subchannel = subchannel

section
variable {b : Bank} {strap : Strap} {address : Byte} {subchannel : Fin 4}

/-- A source address that R2 admits. -/
theorem matchSlot_of_admitted (h : ¬(address.toNat = 0 ∨ 31 < address.toNat ∨ address = strapByte strap)) :
    matchSlot b strap address subchannel = Fin.find? fun i =>
      b.slots[i].configured && decide (b.slots[i].node = address.toNat) && decide (b.slots[i].subchannel = subchannel) := by
  rw [matchSlot, if_neg h, Fin.find?_eq_find?_finRange]

theorem mapsTo_iff (h : ¬(address.toNat = 0 ∨ 31 < address.toNat ∨ address = strapByte strap)) (i : Fin 32) :
    b.mapsTo strap address subchannel i ↔ (b.slots[i].configured && decide (b.slots[i].node = address.toNat) &&
      decide (b.slots[i].subchannel = subchannel)) = true := by
  obtain ⟨hzero, habove, hown⟩ : address.toNat ≠ 0 ∧ ¬31 < address.toNat ∧ address ≠ strapByte strap := by tauto
  have hne : address ≠ 0#8 := by
    rintro rfl
    exact hzero rfl
  simp [Bank.mapsTo, hne, Nat.le_of_not_lt habove, hown, and_assoc]

theorem not_mapsTo (h : address.toNat = 0 ∨ 31 < address.toNat ∨ address = strapByte strap) (i : Fin 32) :
    ¬b.mapsTo strap address subchannel i := by
  rintro ⟨hne, hbelow, hown, -⟩
  obtain hzero | habove | hstrap := h
  · exact hne (BitVec.eq_of_toNat_eq hzero)
  · omega
  · exact hown hstrap

/-- A key maps to no slot when none has it. -/
theorem matchSlot_eq_none_iff : matchSlot b strap address subchannel = none ↔
    ∀ i, ¬b.mapsTo strap address subchannel i := by
  by_cases h : address.toNat = 0 ∨ 31 < address.toNat ∨ address = strapByte strap
  · exact iff_of_true (if_pos h) (not_mapsTo h)
  · simp only [matchSlot_of_admitted h, Fin.find?_eq_none_iff, mapsTo_iff h, Bool.not_eq_true]

/-- It maps to the first slot that has it. -/
theorem matchSlot_eq_some_iff (i : Fin 32) : matchSlot b strap address subchannel = some i ↔
    b.mapsTo strap address subchannel i ∧ ∀ j, j < i → ¬b.mapsTo strap address subchannel j := by
  by_cases h : address.toNat = 0 ∨ 31 < address.toNat ∨ address = strapByte strap
  · rw [matchSlot, if_pos h]
    exact iff_of_false (Option.some_ne_none i).symm fun hmaps => not_mapsTo h i hmaps.1
  · simp only [matchSlot_of_admitted h, Fin.find?_eq_some_iff, mapsTo_iff h, Bool.not_eq_true]

end

theorem classify_unmapped {s : State} {m : Sample}
    (hmatch : matchSlot s.activeBank s.pins.strap m.address m.subchannel = none) : classify s m = .unmapped := by
  simp [classify, hmatch]

/-- A SAMPLE that is mapped, by the tests that follow. -/
theorem classify_mapped {s : State} {m : Sample} {i : Fin 32}
    (hmatch : matchSlot s.activeBank s.pins.strap m.address m.subchannel = some i) : classify s m =
      if s.cycle.link ≠ .opened ∨ s.cycle.currentCycle ≠ some m.cycle then .stale i
      else if m.kind ≠ (s.slotRecord i).kind then .kindMismatch i
      else if (s.slot i).indication then .duplicate i else .valid i := by
  simp only [classify, hmatch]

/-! ## The body a mapped SAMPLE is forwarded with (R15, R16) -/

/-- A byte with bit 6 set is not changed by setting it. -/
theorem or_rewritten_of_set {y : Byte} (h : y.getLsbD 6 = true) : y ||| markRewritten = y := by
  apply BitVec.eq_of_getLsbD_eq
  intro k hk
  simp only [BitVec.getLsbD_or, markRewritten]
  interval_cases k <;> simp [h]

/-- Marks that arrive with REWRITTEN keep it, and those that arrive without it stay without it unless it is set. -/
theorem writtenMarks_eq (marks : Byte) (health : HealthName) (rewrite : Bool) :
    writtenMarks marks health (rewrite || isRewritten marks) =
      (marks &&& 0x78#8) ||| 0x80#8 ||| health.code ||| (if rewrite then 0x40#8 else 0#8) := by
  unfold writtenMarks
  cases rewrite with
  | true => rfl
  | false =>
    cases h : isRewritten marks with
    | false => rfl
    | true =>
      have hset : ((marks &&& 0x78#8) ||| markMonitored ||| health.code).getLsbD 6 = true := by
        simp only [BitVec.getLsbD_or, BitVec.getLsbD_and, show marks.getLsbD 6 = true from h]
        rfl
      simp only [Bool.false_or, if_true, or_rewritten_of_set hset, Bool.false_eq_true, if_false, BitVec.or_zero]
      rfl

/-- The body forwarded when no position is rewritten: the marks alone are. -/
theorem forwardedBody_of_not {r : SlotRecord} {valid : Bool} {m : Sample}
    (h : (valid && r.rewrite && !isRewritten m.marks) = false) (health : Health) (body : List Byte) :
    forwardedBody r health valid m body =
      body.set 5 ((m.marks &&& 0x78#8) ||| 0x80#8 ||| health.name.code) := by
  unfold forwardedBody
  dsimp only
  rw [h, writtenMarks_eq]
  simp [rewriteBody]

/-- The body forwarded when the corrected position is written. -/
theorem forwardedBody_of_rewrite {r : SlotRecord} {m : Sample} (h : (r.rewrite && !isRewritten m.marks) = true)
    (health : Health) (body : List Byte) : forwardedBody r health true m body =
      ((body.set 5 ((m.marks &&& 0x78#8) ||| 0x80#8 ||| health.name.code ||| 0x40#8)).set 3
        ((correctedPosition r m).extractLsb' 8 8)).set 4 ((correctedPosition r m).extractLsb' 0 8) := by
  unfold forwardedBody
  dsimp only
  rw [Bool.true_and, h, writtenMarks_eq]
  rfl

/-! ## A SAMPLE that is not valid (R3, R4) -/

/-- A SAMPLE in MONITOR is taken, and its frame admitted with the body that leaves. -/
theorem handleInbound_sample {f : Frame} {s t : State} {body : Option (List Byte)} (htype : f.type = typeSample)
    (hmode : s.config.mode = .monitor) (htaken : takeSample f.address f.body s = (t, body)) (bytes : List Byte) :
    handleInbound f bytes s =
      admitInbound ((body.map fun body => (Frame.mk f.type f.address body).bytes).getD bytes) t := by
  unfold handleInbound
  rw [if_pos ⟨htype, hmode⟩, htaken]
  cases body <;> rfl

theorem takeSample_malformed {address : Byte} {body : List Byte} (hparse : parseSample address body = none) (s : State) :
    takeSample address body s = (s.withChannels { s.channels with
      counters := { s.channels.counters with malformed := satInc s.channels.counters.malformed } }, none) := by
  simp only [takeSample, hparse]

section
variable {address : Byte} {body : List Byte} {s : State} {m : Sample}

theorem takeSample_unmapped (hparse : parseSample address body = some m) (houtcome : classify s m = .unmapped) :
    takeSample address body s = (s.withChannels { s.channels with
      counters := { s.channels.counters with unmapped := satInc s.channels.counters.unmapped } }, none) := by
  simp only [takeSample, hparse, houtcome]
  rfl

/-- A SAMPLE that is mapped and not valid is counted, and its frame marked with the slot's health. -/
theorem takeSample_refused (hparse : parseSample address body = some m) {o : SampleOutcome} {i : Fin 32}
    (houtcome : classify s m = o) (ho : o = .stale i ∨ o = .kindMismatch i ∨ o = .duplicate i) :
    takeSample address body s =
      (s.withChannels { s.channels with counters := countOutcome o s.channels.counters },
       some (body.set 5 ((m.marks &&& 0x78#8) ||| 0x80#8 ||| (s.slot i).health.name.code))) := by
  rw [← forwardedBody_of_not (r := s.slotRecord i) (valid := false) (by rfl)]
  rcases ho with rfl | rfl | rfl <;> simp only [takeSample, hparse, houtcome] <;> rfl

/-- A valid SAMPLE is judged, and its frame marked with the health its slot is left in. -/
theorem takeSample_valid (hparse : parseSample address body = some m) {i : Fin 32} (houtcome : classify s m = .valid i) :
    takeSample address body s = (settleLines (takeValid i m s),
      some (forwardedBody (s.slotRecord i) ((takeValid i m s).slot i).health true m body)) := by
  simp only [takeSample, hparse, houtcome]
  rfl

end

/-- Settles O25: the tests of R4 in their order. -/
theorem sampleNotValid : Obligations.SampleNotValid := by
  intro s run f hphase hearly hmode hf htype counted c
  have hcounted : ∀ {c' : SampleCounters} {body : Option (List Byte)},
      takeSample f.address f.body s = (s.withChannels { s.channels with counters := c' }, body) →
      exec (.frameReceivedSp run) s =
        counted c' ((body.map fun body => (Frame.mk f.type f.address body).bytes).getD run.bytes) := by
    intro c' body htaken
    rw [exec_frameReceivedSp_intact hphase hearly hf, handleInbound_sample htype hmode htaken, admitInbound_eq]
    rfl
  refine ⟨fun hparse => hcounted (takeSample_malformed hparse s), fun m hparse => ⟨matchSlot_eq_none_iff,
    matchSlot_eq_some_iff, fun hnone => hcounted (takeSample_unmapped hparse (classify_unmapped hnone)), ?_⟩⟩
  intro i hmatch marks marked isStale isOther
  have hclass := classify_mapped hmatch
  refine ⟨fun hstale => ?_, fun hcurrent hother => ?_, fun hcurrent hsame hduplicate => ?_⟩
  · exact hcounted (takeSample_refused hparse (hclass.trans (if_pos hstale)) (.inl rfl))
  · rw [if_neg hcurrent, if_pos hother] at hclass
    exact hcounted (takeSample_refused hparse hclass (.inr (.inl rfl)))
  · rw [if_neg hcurrent, if_neg hsame, if_pos hduplicate] at hclass
    exact hcounted (takeSample_refused hparse hclass (.inr (.inr rfl)))

/-! ## A valid SAMPLE (R7, R8, R14 to R17) -/

/-- The state a valid SAMPLE leaves. -/
def State.sampled (s : State) (f : Frame) (i : Fin 32) (m : Sample) : State :=
  admitInbound (Frame.mk f.type f.address
    (forwardedBody (s.slotRecord i) ((takeValid i m s).slot i).health true m f.body)).bytes (settleLines (takeValid i m s))

theorem exec_validSample {s : State} {run : Run} {f : Frame} {m : Sample} {i : Fin 32} (htakes : s.takesSample run f m)
    (hfinds : s.findsValid m i) : exec (.frameReceivedSp run) s = .next (s.sampled f i m) := by
  obtain ⟨hphase, hearly, hmode, hf, htype, hparse⟩ := htakes
  rw [exec_frameReceivedSp_intact hphase hearly hf,
    handleInbound_sample htype hmode (takeSample_valid hparse ((classify_eq_valid_iff s m i).mpr hfinds))]
  rfl

section
variable (s : State) (f : Frame) (i : Fin 32) (m : Sample)

@[simp] theorem sampled_keeps :
    (s.sampled f i m).channels = (takeValid i m s).channels ∧ (s.sampled f i m).matcher = (takeValid i m s).matcher ∧
    (s.sampled f i m).queue = (takeValid i m s).queue ∧ (s.sampled f i m).cycle = s.cycle ∧
    (s.sampled f i m).reports = s.reports ∧ (s.sampled f i m).commands = s.commands ∧
    (s.sampled f i m).config = s.config ∧ (s.sampled f i m).pins = s.pins := by
  simp [State.sampled, admitInbound_eq]

theorem sampled_slot (j : Fin 32) : (s.sampled f i m).slot j = if j = i then sampledSlot s i m else s.slot j := by
  rw [← takeValid_slot i j m s]
  simp [State.sampled, admitInbound_eq]

theorem sampled_entry (j : Fin 64) : (s.sampled f i m).entry j = (takeValid i m s).entry j := by
  simp [State.sampled, admitInbound_eq]

theorem sampled_frames : (s.sampled f i m).frames = s.frames.admitted (Frame.mk f.type f.address
    (forwardedBody (s.slotRecord i) (sampledSlot s i m).health true m f.body)).bytes := by
  simp [State.sampled, admitInbound_eq]

end

/-! ### The slot: its total and its indication -/

section
variable (d : SlotState)

/-- What a slot's judgement never moves: the valid-sample total and the indication. -/
def SlotState.sameMarks (d e : SlotState) : Prop := e.validTotal = d.validTotal ∧ e.indication = d.indication

theorem entryStep_sameMarks (r : SlotRecord) : d.sameMarks (entryStep r d) := by
  unfold entryStep
  split_ifs <;> exact ⟨rfl, rfl⟩

theorem envelopeStep_sameMarks (r : SlotRecord) (metric : Nat) : d.sameMarks (envelopeStep r metric d) := by
  obtain h | ⟨_, _, h, -⟩ := envelopeStep_cases r metric d <;> rw [h] <;> exact ⟨rfl, rfl⟩

theorem rateStep_sameMarks (r : SlotRecord) (p cycle : Word) : d.sameMarks (rateStep r p cycle d) := by
  obtain h | ⟨_, h, -⟩ := rateStep_cases r p cycle d <;> rw [h] <;> exact ⟨rfl, rfl⟩

theorem holdStep_sameMarks (r : SlotRecord) (excursion entered : Bool) : d.sameMarks (holdStep r excursion entered d) := by
  obtain h | ⟨-, ⟨_, h, -⟩ | h⟩ := holdStep_cases r excursion entered d <;> rw [h] <;> exact ⟨rfl, rfl⟩

theorem follow_sameMarks : d.sameMarks d.follow := by
  unfold SlotState.follow
  split_ifs <;> exact ⟨rfl, rfl⟩

theorem recordPosition_sameMarks (p cycle : Word) : d.sameMarks (recordPosition p cycle d) := by
  unfold recordPosition
  split_ifs <;> exact ⟨rfl, rfl⟩

end

theorem SlotState.sameMarks.trans {d e g : SlotState} (h : d.sameMarks e) (h' : e.sameMarks g) : d.sameMarks g :=
  ⟨h'.1.trans h.1, h'.2.trans h.2⟩

theorem judge_sameMarks (r : SlotRecord) (p cycle : Word) (metric : Nat) (d : SlotState) :
    d.sameMarks (judge r p cycle metric d) := by
  have hentered : d.sameMarks { entryStep r d with missing := 0 } := entryStep_sameMarks d r
  have henvelope := hentered.trans (envelopeStep_sameMarks _ r metric)
  have hrate := henvelope.trans (rateStep_sameMarks _ r p cycle)
  have hheld := fun excursion entered => (hrate.trans (holdStep_sameMarks _ r excursion entered)).trans (follow_sameMarks _)
  unfold judge
  dsimp only
  refine SlotState.sameMarks.trans ?_ (recordPosition_sameMarks _ p cycle)
  split_ifs
  · exact henvelope
  · exact hrate
  · exact hheld _ _

/-- The total advances, and the indication is set, whatever the slot's health (R7, R8). -/
theorem sampledSlot_marks (s : State) (i : Fin 32) (m : Sample) :
    (sampledSlot s i m).validTotal = (s.slot i).validTotal + 1 ∧ (sampledSlot s i m).indication = true := by
  unfold sampledSlot
  dsimp only
  split_ifs
  · exact ⟨rfl, rfl⟩
  · exact judge_sameMarks _ _ _ _ _

/-! ### A latched fault (R26) -/

theorem Health.isLatchedFault_of {h : Health} {cause : FaultCause} (hfaulted : h = .faulted cause)
    (hcause : cause = .envelope ∨ cause = .rate ∨ cause = .mismatch) : h.isLatchedFault = true := by
  rcases hcause with rfl | rfl | rfl <;> rw [hfaulted] <;> rfl

/-- A slot with a latched fault counts the SAMPLE, and nothing else happens. -/
theorem takeValid_latched {s : State} {i : Fin 32} (m : Sample) (h : (s.slot i).health.isLatchedFault = true) :
    takeValid i m s =
      s.withSlot i { s.slot i with validTotal := (s.slot i).validTotal + 1, indication := true } := if_pos h

/-- Settles O26: the slot's marks, what stays, and the frame. -/
theorem validSampleFrame : Obligations.ValidSampleFrame := by
  intro s run f m i htakes hfinds p rewrites
  obtain ⟨htotal, hindication⟩ := sampledSlot_marks s i m
  refine ⟨_, exec_validSample htakes hfinds, by simpa [sampled_slot] using htotal, by simpa [sampled_slot] using hindication,
    fun j hj => by simp [sampled_slot, hj], by simp, by simp, by simp, by simp, by simp, by simp, ?_,
    fun cause hfaulted hcause => ?_⟩
  · rw [sampled_frames, sampled_slot, if_pos rfl]
    by_cases hrewrites : rewrites
    · obtain ⟨hflag, harrived⟩ := id hrewrites
      rw [forwardedBody_of_rewrite (by rw [hflag, isRewritten, harrived]; rfl)]
      simp only [if_pos hrewrites]
      rfl
    · have hnot : (true && (s.slotRecord i).rewrite && !isRewritten m.marks) = false := by
        simpa [rewrites, isRewritten] using hrewrites
      rw [forwardedBody_of_not hnot]
      simp only [if_neg hrewrites, BitVec.or_zero]
      rfl
  · have hlatched := Health.isLatchedFault_of hfaulted hcause
    simp [sampled_slot, sampledSlot, hlatched, takeValid_latched m hlatched]

/-! ## The entries a valid SAMPLE is delivered to (R53 to R61, R65) -/

/-- Entries that stay as they are make no transition. -/
theorem State.transitions_of_same {s t : State} (h : ∀ j, t.entry j = s.entry j) (p : Word) (leaves : Bool) :
    s.transitions t p leaves = [] := by
  simp only [State.transitions, List.flatMap_eq_nil_iff, h]
  intro j _
  cases (s.entry j).latch <;> rfl

theorem healthRecord_same (r : SlotRecord) (i : Fin 32) (h : Health) (cause : RecordCause) :
    healthRecord r i h h cause = [] := by
  simp [healthRecord, changePosts]

theorem entryStep_health_congr (r : SlotRecord) {d e : SlotState} (h : d.health = e.health) :
    (entryStep r d).health = (entryStep r e).health := by
  unfold entryStep
  rw [h]
  by_cases hentry : e.health.makesEntry = true
  · simp only [if_pos hentry]
  · simp only [if_neg hentry, h]

theorem entryStep_latched (r : SlotRecord) {d : SlotState} (h : d.health.isLatchedFault = true) : entryStep r d = d := by
  refine if_neg ?_
  rcases hd : d.health with _ | _ | _ | _ | _ | cause
  case faulted => cases cause <;> simp_all [Health.makesEntry, Health.isLatchedFault]
  all_goals simp [hd, Health.isLatchedFault] at h

/-- The queue after a valid SAMPLE: the HEALTH records of its judgement, then those of the entries (R46, R57, R67). -/
theorem takeValid_queue (i : Fin 32) (m : Sample) (s : State) : (takeValid i m s).queue = s.queue.postEach s.cycleNumber
    (judgeRecords (s.slotRecord i) i (s.slot i).health (sampledSlot s i m).health
        (entryStep (s.slotRecord i) (s.slot i)).health ++
      s.transitions (takeValid i m s) (correctedPosition (s.slotRecord i) m) (!(sampledSlot s i m).health.inPair)) := by
  by_cases hlatched : (s.slot i).health.isLatchedFault = true
  · rw [takeValid_latched m hlatched, sampledSlot_of_latched m hlatched, entryStep_latched _ hlatched,
      State.transitions_of_same (by simp)]
    simp [judgeRecords, healthRecord_same]
  have hsampled : sampledSlot s i m = judge (s.slotRecord i) (correctedPosition (s.slotRecord i) m) m.cycle
      (envelopeMetric (correctedA (s.slotRecord i) m) (correctedB (s.slotRecord i) m))
      { s.slot i with validTotal := (s.slot i).validTotal + 1, indication := true } := if_neg hlatched
  have hentered := entryStep_health_congr (s.slotRecord i)
    (d := { s.slot i with validTotal := (s.slot i).validTotal + 1, indication := true }) (e := s.slot i) rfl
  unfold takeValid
  dsimp only
  rw [if_neg hlatched, ← hsampled, hentered]
  generalize hrecords : judgeRecords (s.slotRecord i) i (s.slot i).health (sampledSlot s i m).health
    (entryStep (s.slotRecord i) (s.slot i)).health = records
  generalize correctedPosition (s.slotRecord i) m = p
  have hnumber : (postAll records (s.withSlot i (sampledSlot s i m))).cycleNumber = s.cycleNumber := by
    simp [State.cycleNumber]
  have hposted : (postAll records (s.withSlot i (sampledSlot s i m))).queue = s.queue.postEach s.cycleNumber records := by
    rw [postAll_postEach]
    simp [State.cycleNumber]
  have htransitions : ∀ t leaves, (postAll records (s.withSlot i (sampledSlot s i m))).transitions t p leaves =
      s.transitions t p leaves := fun t leaves =>
    State.transitions_congr (by simp) (by simp) (fun _ => rfl) p leaves
  cases hpair : (sampledSlot s i m).health.inPair with
  | true =>
    simp only [Bool.not_true, Bool.and_false, Bool.false_eq_true, if_false, if_true]
    rw [deliver_queue, hnumber, hposted, EventQueue.postEach_append, htransitions]
  | false =>
    simp only [Bool.not_false, Bool.and_true, Bool.false_eq_true, if_false]
    by_cases hleaves : (entryStep (s.slotRecord i) (s.slot i)).health.inPair = true
    · rw [if_pos hleaves, leaveTracking_queue _ _ p, hnumber, hposted, EventQueue.postEach_append, htransitions]
    · rw [if_neg hleaves, hposted, State.transitions_of_same (by simp), List.append_nil]

theorem State.findsValid.cycleNumber {s : State} {m : Sample} {i : Fin 32} (h : s.findsValid m i) :
    s.cycleNumber = m.cycle := by
  obtain ⟨-, -, hcurrent, -⟩ := h
  simp [State.cycleNumber, hcurrent]

/-- The queue after a valid SAMPLE, in the number it carries. -/
theorem sampled_queue {s : State} {m : Sample} {i : Fin 32} (hfinds : s.findsValid m i) (f : Frame) :
    (s.sampled f i m).queue = s.queue.postEach m.cycle
      (judgeRecords (s.slotRecord i) i (s.slot i).health (sampledSlot s i m).health
          (entryStep (s.slotRecord i) (s.slot i)).health ++
        s.transitions (s.sampled f i m) (correctedPosition (s.slotRecord i) m)
          (!(sampledSlot s i m).health.inPair)) := by
  have htransitions := State.transitions_congr (s := s) (t := s.sampled f i m) (t' := takeValid i m s) (fun _ => rfl)
    (fun _ => rfl) (fun j => (sampled_entry s f i m j).symm)
  rw [← htransitions, (sampled_keeps s f i m).2.2.1, takeValid_queue, hfinds.cycleNumber]

/-- A slot that a SAMPLE leaves in the pair has no latched fault. -/
theorem not_latched_of_sampled_inPair {s : State} {i : Fin 32} {m : Sample}
    (hpair : (sampledSlot s i m).health.inPair = true) : (s.slot i).health.isLatchedFault = false := by
  by_contra hlatched
  rw [Bool.not_eq_false] at hlatched
  rw [sampledSlot_of_latched m hlatched] at hpair
  obtain h | h := (Health.inPair_iff _).mp hpair <;> simp [h, Health.isLatchedFault] at hlatched

/-- A judgement that leaves a slot out of the pair takes its used entries with it when the entry step had it there. -/
theorem sampled_entry_of_left {s : State} {f : Frame} {i : Fin 32} {m : Sample}
    (hleft : (sampledSlot s i m).health.inPair = false) (j : Fin 64) : (s.sampled f i m).entry j =
      if (s.entryRecord j).used = true ∧ (s.entryRecord j).slot = i ∧
        (entryStep (s.slotRecord i) (s.slot i)).health.inPair = true then (s.entry j).left else s.entry j := by
  rw [sampled_entry, takeValid_entry, hleft, leaveEntry_eq_left]
  simp only [Bool.false_eq_true, if_false]
  by_cases hentered : (entryStep (s.slotRecord i) (s.slot i)).health.inPair = true
  · have hfree : (s.slot i).health.isLatchedFault = false := by
      by_contra hlatched
      rw [Bool.not_eq_false] at hlatched
      rw [entryStep_latched _ hlatched] at hentered
      obtain h | h := (Health.inPair_iff _).mp hentered <;> simp [h, Health.isLatchedFault] at hlatched
    simp [hentered, hfree]
  · simp [hentered]

/-- A judgement that leaves a slot in the pair delivers the position to its used entries. -/
theorem sampled_entry_of_inPair {s : State} {f : Frame} {i : Fin 32} {m : Sample}
    (hpair : (sampledSlot s i m).health.inPair = true) (j : Fin 64) : (s.sampled f i m).entry j =
      if (s.entryRecord j).used = true ∧ (s.entryRecord j).slot = i then
        evaluateEntry (s.entryRecord j) (correctedPosition (s.slotRecord i) m) (s.entry j)
      else s.entry j := by
  rw [sampled_entry, takeValid_entry, hpair, not_latched_of_sampled_inPair hpair]
  simp

/-- The table of R54. -/
theorem evaluate_inside {r : EntryRecord} (hform : r.form = .inside) (before : Condition) (p : Word) :
    (r.inCore p = true → r.evaluate before p = .inWindow) ∧
    (r.inCore p = false → r.inExtended p = true →
      r.evaluate before p = if before = .inWindow then .inWindow else .outWindow) ∧
    (r.inCore p = false → r.inExtended p = false → r.evaluate before p = .outWindow) := by
  simp +contextual [EntryRecord.evaluate, nextCondition, hform]

/-- The table of R55. -/
theorem evaluate_outside {r : EntryRecord} (hform : r.form = .outside) (before : Condition) (p : Word) :
    (r.inCore p = true → r.evaluate before p = .outWindow) ∧
    (r.inCore p = false → r.inExtended p = true →
      r.evaluate before p = if before = .inWindow then .inWindow else .outWindow) ∧
    (r.inCore p = false → r.inExtended p = false → r.evaluate before p = .inWindow) := by
  simp +contextual [EntryRecord.evaluate, nextCondition, hform]

/-- The latch of a LEVEL entry (R59). -/
theorem nextLatch_level (old : Latch) (before after : Condition) :
    (old = .idle → before ≠ .inWindow → after = .inWindow → nextLatch .level old before after = .active) ∧
    (old = .active → before = .inWindow → after = .outWindow → nextLatch .level old before after = .idle) := by
  constructor
  · rintro rfl hbefore rfl
    exact if_pos ⟨hbefore, rfl⟩
  · rintro rfl rfl rfl
    rfl

/-- The latch of a LATCHED entry (R60, R61). -/
theorem nextLatch_latched (old : Latch) (before after : Condition) :
    (old = .idle → before ≠ .inWindow → after = .inWindow → nextLatch .latched old before after = .set) ∧
    (old = .set → nextLatch .latched old before after = .set) ∧
    (old = .deferred → before = .inWindow → after = .outWindow → nextLatch .latched old before after = .idle) := by
  refine ⟨?_, ?_, ?_⟩
  · rintro rfl hbefore rfl
    exact if_pos ⟨hbefore, rfl⟩
  · rintro rfl
    rfl
  · rintro rfl rfl rfl
    rfl

/-- A latch moves only on a change to IN or from IN to OUT (R56). -/
theorem nextLatch_of_no_change (mode : EntryMode) (old : Latch) {before after : Condition}
    (h : ¬(before ≠ .inWindow ∧ after = .inWindow) ∧ ¬(before = .inWindow ∧ after = .outWindow)) :
    nextLatch mode old before after = old := by
  obtain ⟨hin, hout⟩ := h
  match mode, old with
  | .level, .idle | .latched, .idle => exact if_neg hin
  | .level, .active | .latched, .deferred => exact if_neg hout
  | .level, .set | .level, .deferred | .latched, .active | .latched, .set => rfl

/-- Settles O33: the tables of the condition and of the latch, and the leaving with the slot. -/
theorem entriesEvaluated : Obligations.EntriesEvaluated := by
  intro s run f m i htakes hfinds entered
  have hslot : (s.sampled f i m).slot i = sampledSlot s i m := by rw [sampled_slot, if_pos rfl]
  refine ⟨_, exec_validSample htakes hfinds, by rw [hslot, sampled_queue hfinds], fun hleft => ?_, fun htracked j => ?_⟩
  · exact sampled_entry_of_left (hslot ▸ hleft)
  have hentry := sampled_entry_of_inPair (f := f) (hslot ▸ (Health.inPair_iff _).mpr htracked) j
  intro r p before after old new
  refine ⟨fun hnot => hentry.trans (if_neg fun h => hnot.elim (by simp [r, h.1]) fun hne => hne h.2),
    fun hused hof => ?_⟩
  rw [if_pos ⟨hused, hof⟩] at hentry
  have hafter : after = r.evaluate before p := congrArg EntryState.condition hentry
  have hnew : new = nextLatch r.mode old before after := by
    rw [hafter]
    exact congrArg EntryState.latch hentry
  refine ⟨fun hform => ?_, fun hform => ?_, fun hmode => ?_, fun hmode => ?_, fun hsame => ?_, fun hunknown hout => ?_⟩
  · rw [hafter]
    exact evaluate_inside hform before p
  · rw [hafter]
    exact evaluate_outside hform before p
  · rw [hnew, hmode]
    exact nextLatch_level old before after
  · rw [hnew, hmode]
    exact nextLatch_latched old before after
  · rw [hnew]
    exact nextLatch_of_no_change _ _ (by rw [hsame]; refine ⟨fun h => h.1 h.2, fun h => ?_⟩; simp [h.1] at h)
  · rw [hnew]
    exact nextLatch_of_no_change _ _ (by simp [hunknown, hout])

end Sys2Proof.Machine
end

section
/-! PROOF. The judgement of a valid SAMPLE, by the state of its slot (R23 to R37, R45, R46). -/

namespace Sys2Proof.Machine

/-! ## The envelope check (R30 to R32) -/

/-- A slot after an envelope check that does not fault it. -/
def SlotState.enveloped (kind : SampleKind) (r : SlotRecord) (metric : Nat) (d : SlotState) : SlotState :=
  { d with
    envelope :=
      if kind = .pair ∧ (metric < r.envelopeLow ∨ r.envelopeHigh < metric) then d.envelope + 1
      else if (kind = .pair ∧ ¬(metric < r.envelopeLow ∨ r.envelopeHigh < metric)) ∧ r.decayRun ≤ d.goodRun + 1 then
        d.envelope - 1
      else d.envelope
    goodRun :=
      if (kind = .pair ∧ (metric < r.envelopeLow ∨ r.envelopeHigh < metric)) ∨
          ((kind = .pair ∧ ¬(metric < r.envelopeLow ∨ r.envelopeHigh < metric)) ∧ r.decayRun ≤ d.goodRun + 1) then 0
      else if kind = .pair ∧ ¬(metric < r.envelopeLow ∨ r.envelopeHigh < metric) then d.goodRun + 1
      else d.goodRun }

@[simp] theorem enveloped_keeps (kind : SampleKind) (r : SlotRecord) (metric : Nat) (d : SlotState) :
    (d.enveloped kind r metric).health = d.health ∧ (d.enveloped kind r metric).missing = d.missing ∧
    (d.enveloped kind r metric).rate = d.rate ∧ (d.enveloped kind r metric).hold = d.hold ∧
    (d.enveloped kind r metric).lastPosition = d.lastPosition := ⟨rfl, rfl, rfl, rfl, rfl⟩

theorem isExcursion_iff (r : SlotRecord) (metric : Nat) :
    isExcursion r metric = true ↔ r.kind = .pair ∧ (metric < r.envelopeLow ∨ r.envelopeHigh < metric) := by
  simp [isExcursion]

section
variable {r : SlotRecord} {metric : Nat} {d : SlotState}

/-- An excursion at the envelope limit faults the slot. -/
theorem envelopeStep_overLimit (hjudged : d.health.isJudged = true)
    (hover : (r.kind = .pair ∧ (metric < r.envelopeLow ∨ r.envelopeHigh < metric)) ∧ d.envelope + 1 = r.envelopeLimit) :
    envelopeStep r metric d = d.enterFaulted .envelope := by
  obtain ⟨hexcursion, hlimit⟩ := hover
  rw [envelopeStep, if_pos ⟨hexcursion.1, hjudged⟩, if_pos ((isExcursion_iff r metric).mpr hexcursion), if_pos hlimit]

/-- Any other sample moves the envelope count and the good run alone. -/
theorem envelopeStep_enveloped (hjudged : d.health.isJudged = true)
    (hunder : ¬((r.kind = .pair ∧ (metric < r.envelopeLow ∨ r.envelopeHigh < metric)) ∧
      d.envelope + 1 = r.envelopeLimit)) : envelopeStep r metric d = d.enveloped r.kind r metric := by
  unfold envelopeStep SlotState.enveloped
  by_cases hkind : r.kind = .pair
  · by_cases hout : metric < r.envelopeLow ∨ r.envelopeHigh < metric
    · rw [if_pos ⟨hkind, hjudged⟩, if_pos ((isExcursion_iff r metric).mpr ⟨hkind, hout⟩),
        if_neg fun hlimit => hunder ⟨⟨hkind, hout⟩, hlimit⟩]
      simp [hkind, hout]
    · rw [if_pos ⟨hkind, hjudged⟩, if_neg fun h => hout ((isExcursion_iff r metric).mp h).2]
      by_cases hdecays : r.decayRun ≤ d.goodRun + 1 <;> simp [hkind, hout, hdecays]
  · simp [hkind]

/-! ## The judgement, once the envelope has been checked (R23) -/

variable {e : SlotState} {p cycle : Word}

/-- A slot that the entry step leaves judged is faulted by an excursion at the envelope limit. -/
theorem judge_overLimit (hentered : { entryStep r d with missing := 0 } = e) (hjudged : e.health.isJudged = true)
    (hover : (r.kind = .pair ∧ (metric < r.envelopeLow ∨ r.envelopeHigh < metric)) ∧ e.envelope + 1 = r.envelopeLimit) :
    judge r p cycle metric d = e.enterFaulted .envelope := by
  unfold judge
  dsimp only
  rw [hentered, envelopeStep_overLimit hjudged hover, if_pos (enterFaulted_isFaulted _ _), recordPosition_enterFaulted]

theorem Health.not_faulted_of_judged {h : Health} (hjudged : h.isJudged = true) : h.isFaulted = false := by
  obtain rfl | rfl | rfl := (Health.isJudged_iff h).mp hjudged <;> rfl

/-- Else the rate check, the hold step and the follow step come behind the envelope check. -/
theorem judge_enveloped (hentered : { entryStep r d with missing := 0 } = e) (hjudged : e.health.isJudged = true)
    (hunder : ¬((r.kind = .pair ∧ (metric < r.envelopeLow ∨ r.envelopeHigh < metric)) ∧
      e.envelope + 1 = r.envelopeLimit)) {g : SlotState}
    (hrated : rateStep r p cycle (e.enveloped r.kind r metric) = g) : judge r p cycle metric d =
      recordPosition p cycle (if g.health.isFaulted then g
        else (holdStep r (isExcursion r metric) d.health.makesEntry g).follow) := by
  unfold judge
  dsimp only
  rw [hentered, envelopeStep_enveloped hjudged hunder, hrated, if_neg]
  simp [Health.not_faulted_of_judged hjudged]

/-- A slot that follows its counts, nothing missing. -/
def SlotState.followed (d : SlotState) : SlotState :=
  { d with health := if d.envelope = 0 ∧ d.rate = 0 ∧ d.mismatch = 0 then .tracking else .suspect }

theorem followed_inPair (d : SlotState) : d.followed.health.inPair = true := by
  simp only [SlotState.followed]
  split_ifs <;> rfl

theorem Health.not_faulted_of_inPair {h : Health} (hpair : h.inPair = true) : h.isFaulted = false :=
  Health.not_faulted_of_judged ((Health.isJudged_iff h).mpr (.inr ((Health.inPair_iff h).mp hpair)))

theorem follow_eq_followed (hpair : d.health.inPair = true) (hmissing : d.missing = 0) : d.follow = d.followed := by
  simp [follow_of_inPair hpair, SlotState.followed, SlotState.quiet, hmissing]

/-- A slot of the pair that follows its counts and has its position recorded. -/
theorem recordPosition_follow (hpair : d.health.inPair = true) (hmissing : d.missing = 0) :
    recordPosition p cycle d.follow = { d.followed with lastPosition := some (p, cycle) } := by
  rw [follow_eq_followed hpair hmissing,
    recordPosition_of_not_faulted _ _ (Health.not_faulted_of_inPair (followed_inPair d))]

/-! ### A slot of the pair (R33, R34) -/

/-- The rate check faults it. -/
theorem judge_rateFaulted (hentered : { entryStep r d with missing := 0 } = e) (hpair : e.health.inPair = true)
    (hunder : ¬((r.kind = .pair ∧ (metric < r.envelopeLow ∨ r.envelopeHigh < metric)) ∧
      e.envelope + 1 = r.envelopeLimit))
    (hrated : rateStep r p cycle (e.enveloped r.kind r metric) = (e.enveloped r.kind r metric).enterFaulted .rate) :
    judge r p cycle metric d = (e.enveloped r.kind r metric).enterFaulted .rate := by
  have hjudged : e.health.isJudged = true := (Health.isJudged_iff _).mpr (.inr ((Health.inPair_iff _).mp hpair))
  rw [judge_enveloped hentered hjudged hunder hrated, if_pos (enterFaulted_isFaulted _ _), recordPosition_enterFaulted]

/-- The rate check leaves a rate count, and the slot follows its counts. -/
theorem judge_rated (hentered : { entryStep r d with missing := 0 } = e) (hpair : e.health.inPair = true)
    (hunder : ¬((r.kind = .pair ∧ (metric < r.envelopeLow ∨ r.envelopeHigh < metric)) ∧
      e.envelope + 1 = r.envelopeLimit)) {rate : Nat}
    (hrated : rateStep r p cycle (e.enveloped r.kind r metric) = { e.enveloped r.kind r metric with rate }) :
    judge r p cycle metric d =
      { SlotState.followed { e.enveloped r.kind r metric with rate } with lastPosition := some (p, cycle) } := by
  have hjudged : e.health.isJudged = true := (Health.isJudged_iff _).mpr (.inr ((Health.inPair_iff _).mp hpair))
  have hmissing : e.missing = 0 := by rw [← hentered]
  have hheld : holdStep r (isExcursion r metric) d.health.makesEntry { e.enveloped r.kind r metric with rate } =
      { e.enveloped r.kind r metric with rate } := if_neg fun h => Health.not_settling_of_inPair hpair h.1
  rw [judge_enveloped hentered hjudged hunder hrated, if_neg, hheld, recordPosition_follow]
  · exact hpair
  · exact hmissing
  · simp [Health.not_faulted_of_judged hjudged]

/-! ### A slot in SETTLING (R35) -/

/-- No rate check is made of a slot that is not in the pair. -/
theorem rateStep_of_not_inPair (hpair : d.health.inPair = false) : rateStep r p cycle d = d := if_neg (by simp [hpair])

section
variable (hentered : { entryStep r d with missing := 0 } = e) (hsettling : e.health = .settling)
  (hunder : ¬((r.kind = .pair ∧ (metric < r.envelopeLow ∨ r.envelopeHigh < metric)) ∧
    e.envelope + 1 = r.envelopeLimit))
include hentered hsettling hunder

/-- Its position is recorded with what the hold step and the follow step leave. -/
theorem judge_settling : judge r p cycle metric d = recordPosition p cycle
    (holdStep r (isExcursion r metric) d.health.makesEntry (e.enveloped r.kind r metric)).follow := by
  have hjudged : e.health.isJudged = true := by rw [hsettling]; rfl
  rw [judge_enveloped hentered hjudged hunder (rateStep_of_not_inPair (by simp [hsettling, Health.inPair])), if_neg]
  simp [Health.not_faulted_of_judged hjudged]

/-- A slot that the hold step leaves in SETTLING. -/
theorem judge_stays {hold : Nat}
    (hheld : holdStep r (isExcursion r metric) d.health.makesEntry (e.enveloped r.kind r metric) =
      { e.enveloped r.kind r metric with hold }) : judge r p cycle metric d =
      { e.enveloped r.kind r metric with hold, lastPosition := some (p, cycle) } := by
  have hhealth : (SlotState.health { e.enveloped r.kind r metric with hold }) = .settling := hsettling
  rw [judge_settling hentered hsettling hunder, hheld, follow_of_not_inPair (by rw [hhealth]; rfl),
    recordPosition_of_not_faulted _ _ (by rw [hhealth]; rfl)]

/-- A slot that the hold step takes out of SETTLING. -/
theorem judge_leaves
    (hheld : holdStep r (isExcursion r metric) d.health.makesEntry (e.enveloped r.kind r metric) =
      SlotState.followed { e.enveloped r.kind r metric with hold := 0 }) : judge r p cycle metric d =
      { SlotState.followed { e.enveloped r.kind r metric with hold := 0 } with lastPosition := some (p, cycle) } := by
  have hmissing : e.missing = 0 := by rw [← hentered]
  rw [judge_settling hentered hsettling hunder, hheld]
  exact recordPosition_follow (followed_inPair _) hmissing

end

end

/-! ## The records of a judgement (R45, R46) -/

section
variable (r : SlotRecord) (i : Fin 32)

/-- The record of a fault. -/
theorem healthRecord_faulted {h : Health} (hfree : h.isFaulted = false) (cause : FaultCause) :
    healthRecord r i h (.faulted cause) (changeCause h (.faulted cause)) =
      [(3, .health i h.name .faulted (.fault cause))] := by
  have hne : h ≠ .faulted cause := by
    rintro rfl
    cases hfree
  have hposts : changePosts r.noteSuspect h (.faulted cause) = true := by simp [changePosts, hne, Health.inPair]
  rw [healthRecord, if_pos hposts]
  rfl

theorem changeCause_of_not_faulted {h h' : Health} (hfree : h.isFaulted = false) (hfree' : h'.isFaulted = false) :
    changeCause h h' = .none := by
  cases h <;> cases h' <;> simp_all [changeCause, Health.isFaulted]

/-- Within the pair a change posts its record with NOTE_SUSPECT alone. -/
theorem healthRecord_inPair {h h' : Health} (hpair : h.inPair = true) (hpair' : h'.inPair = true) :
    healthRecord r i h h' (changeCause h h') =
      if h' ≠ h ∧ r.noteSuspect = true then [(3, .health i h.name h'.name .none)] else [] := by
  rw [changeCause_of_not_faulted (Health.not_faulted_of_inPair hpair) (Health.not_faulted_of_inPair hpair')]
  simp only [healthRecord, changePosts, hpair, hpair', Bool.and_self, Bool.not_true, Bool.or_false, Bool.and_eq_true,
    decide_eq_true_eq, ne_comm]

/-- Any other change posts it. -/
theorem healthRecord_crossing {h h' : Health} (hne : h ≠ h') (hcrosses : (h.inPair && h'.inPair) = false)
    (cause : RecordCause) : healthRecord r i h h' cause = [(3, .health i h.name h'.name cause)] := by
  have hposts : changePosts r.noteSuspect h h' = true := by simp [changePosts, hne, hcrosses]
  exact if_pos hposts

end

/-! ## A slot that is neither in FAULTED with a latched cause nor entered (R27) -/

theorem sampledSlot_of_free {s : State} {i : Fin 32} {m : Sample} (hfree : (s.slot i).health.isLatchedFault = false) :
    sampledSlot s i m = judge (s.slotRecord i) (correctedPosition (s.slotRecord i) m) m.cycle
      (envelopeMetric (correctedA (s.slotRecord i) m) (correctedB (s.slotRecord i) m))
      { s.slot i with validTotal := (s.slot i).validTotal + 1, indication := true } := if_neg (by simp [hfree])

theorem entryStep_of_not_made (r : SlotRecord) {d : SlotState} (h : d.health.makesEntry = false) : entryStep r d = d :=
  if_neg (by simp [h])

/-- A slot in SETTLING, TRACKING or SUSPECT is free of a latched fault, and makes no entry step. -/
theorem Health.judged_free {h : Health} (hjudged : h.isJudged = true) : h.isLatchedFault = false ∧ h.makesEntry = false := by
  obtain rfl | rfl | rfl := (Health.isJudged_iff h).mp hjudged <;> exact ⟨rfl, rfl⟩

/-- The HEALTH records of a SAMPLE of such a slot: that of its change. -/
theorem judgeRecords_of_judged {r : SlotRecord} {i : Fin 32} {d : SlotState} (hjudged : d.health.isJudged = true)
    (after : Health) : judgeRecords r i d.health after (entryStep r d).health =
      healthRecord r i d.health after (changeCause d.health after) := by
  rw [entryStep_of_not_made r (Health.judged_free hjudged).2, judgeRecords, healthRecord_same]
  rfl

/-- The rate check is of the last position, when that is of the cycle before. -/
theorem rateStep_skips {r : SlotRecord} {p cycle : Word} {d : SlotState}
    (h : ∀ last, d.lastPosition ≠ some (last, cycle - 1)) : rateStep r p cycle d = d := by
  by_cases hpair : d.health.inPair = true
  · obtain hlast | ⟨⟨last, lastCycle⟩, hlast⟩ := Option.eq_none_or_eq_some d.lastPosition
    · exact rateStep_of_no_position r p cycle hlast
    · rw [rateStep_of_position r p cycle hpair hlast, if_neg]
      rintro rfl
      exact h last (by rw [hlast, BitVec.add_sub_cancel])
  · exact rateStep_of_not_inPair (by simpa using hpair)

theorem rateStep_checks {r : SlotRecord} {p cycle last : Word} {d : SlotState} (hpair : d.health.inPair = true)
    (h : d.lastPosition = some (last, cycle - 1)) : rateStep r p cycle d =
      if r.rateLimit < wrapMagnitude p last then
        if d.rate + 1 = r.ratePersistence then d.enterFaulted .rate else { d with rate := d.rate + 1 }
      else { d with rate := 0 } := by
  rw [rateStep_of_position r p cycle hpair h, if_pos (BitVec.sub_add_cancel _ _)]

/-- Settles O27: the envelope, the rate, and the records. -/
theorem trackedSampleJudged : Obligations.TrackedSampleJudged := by
  intro s run f m i htakes hfinds htracked r p metric outside excursion good decays d faulted followed overLimit
  have hpair : (s.slot i).health.inPair = true := (Health.inPair_iff _).mpr htracked
  have hjudged : (s.slot i).health.isJudged = true := (Health.isJudged_iff _).mpr (.inr htracked)
  obtain ⟨hlatched, hmade⟩ := Health.judged_free hjudged
  have hkind : m.kind = r.kind := hfinds.2.2.2.1
  have hslot : (s.sampled f i m).slot i = sampledSlot s i m := by rw [sampled_slot, if_pos rfl]
  -- the slot the judgement begins with, and as the envelope check leaves it
  let e : SlotState := { s.slot i with validTotal := (s.slot i).validTotal + 1, indication := true, missing := 0 }
  have hentered : { entryStep r { s.slot i with validTotal := (s.slot i).validTotal + 1, indication := true } with
      missing := 0 } = e := by rw [entryStep_of_not_made r (by exact hmade)]
  have hover : overLimit → sampledSlot s i m = faulted .envelope := fun hover => by
    rw [sampledSlot_of_free hlatched, judge_overLimit hentered hjudged (by rw [← hkind]; exact hover)]
    rfl
  have hfaulted : ¬overLimit → rateStep r p m.cycle (e.enveloped r.kind r metric) =
      (e.enveloped r.kind r metric).enterFaulted .rate → sampledSlot s i m = faulted .rate := fun hunder hrated => by
    rw [sampledSlot_of_free hlatched, judge_rateFaulted hentered hpair (by rw [← hkind]; exact hunder) hrated]
    rfl
  have hfollowed : ¬overLimit → ∀ rate, rateStep r p m.cycle (e.enveloped r.kind r metric) =
      { e.enveloped r.kind r metric with rate } → sampledSlot s i m = followed rate := fun hunder rate hrated => by
    rw [sampledSlot_of_free hlatched, judge_rated hentered hpair (by rw [← hkind]; exact hunder) hrated, ← hkind]
    rfl
  have hchecked : ¬overLimit → ∀ last, (s.slot i).lastPosition = some (last, m.cycle - 1) →
      (r.rateLimit < (p - last).toInt.natAbs → (s.slot i).rate + 1 = r.ratePersistence →
        sampledSlot s i m = faulted .rate) ∧
      (r.rateLimit < (p - last).toInt.natAbs → (s.slot i).rate + 1 ≠ r.ratePersistence →
        sampledSlot s i m = followed ((s.slot i).rate + 1)) ∧
      (¬r.rateLimit < (p - last).toInt.natAbs → sampledSlot s i m = followed 0) := by
    intro hunder last hlast
    have hrated := rateStep_checks (r := r) (p := p) (d := e.enveloped r.kind r metric) hpair hlast
    refine ⟨fun hbeyond hpersists => hfaulted hunder ?_, fun hbeyond hshort => hfollowed hunder _ ?_,
      fun hwithin => hfollowed hunder _ ?_⟩ <;> rw [hrated]
    · exact (if_pos hbeyond).trans (if_pos hpersists)
    · exact (if_pos hbeyond).trans (if_neg hshort)
    · exact if_neg hwithin
  have hskipped : ¬overLimit → (∀ last, (s.slot i).lastPosition ≠ some (last, m.cycle - 1)) →
      sampledSlot s i m = followed (s.slot i).rate := fun hunder hskips => hfollowed hunder _ (rateStep_skips hskips)
  refine ⟨_, exec_validSample htakes hfinds, ?_⟩
  rw [hslot]
  refine ⟨hover, hchecked, hskipped, ?_⟩
  rw [sampled_queue hfinds, judgeRecords_of_judged hjudged]
  have hfinal : (∃ cause, sampledSlot s i m = faulted cause) ∨ ∃ rate, sampledSlot s i m = followed rate := by
    by_cases hlimit : overLimit
    · exact .inl ⟨_, hover hlimit⟩
    · obtain hrated | ⟨rate, hrated, -⟩ := rateStep_cases r p m.cycle (e.enveloped r.kind r metric)
      · exact .inl ⟨_, hfaulted hlimit hrated⟩
      · exact .inr ⟨rate, hfollowed hlimit rate hrated⟩
  refine congrArg (fun records => s.queue.postEach m.cycle (records ++ _)) ?_
  obtain ⟨cause, h⟩ | ⟨rate, h⟩ := hfinal
  · have hhealth : (sampledSlot s i m).health = .faulted cause := congrArg SlotState.health h
    rw [hhealth, healthRecord_faulted r i (Health.not_faulted_of_inPair hpair)]
  · have hafter : (sampledSlot s i m).health.inPair = true := by
      rw [h]
      exact followed_inPair { d with rate }
    obtain hhealth | hhealth := (Health.inPair_iff _).mp hafter <;>
      exact hhealth ▸ healthRecord_inPair r i hpair (hhealth ▸ hafter)

end Sys2Proof.Machine
end

section
/-! PROOF. The judgement of a valid SAMPLE of a slot in SETTLING, and of one that enters (R24, R25, R35). -/

namespace Sys2Proof.Machine

/-! ## The hold step (R35) -/

section
variable {r : SlotRecord} {metric : Nat} {d : SlotState} {hold : Nat}

/-- The hold counts down, and is restarted by an excursion; while it is not 0 the slot stays. -/
theorem holdStep_stays (hsettling : d.health = .settling)
    (hhold : (if r.kind = .pair ∧ (metric < r.envelopeLow ∨ r.envelopeHigh < metric) then r.settlingHold
      else d.hold - 1) = hold) (hpositive : 0 < hold) :
    holdStep r (isExcursion r metric) false d = { d with hold } := by
  unfold holdStep
  simp only [hsettling, and_self, if_true, isExcursion_iff, hhold]
  rw [if_neg (by omega)]

/-- At a hold of 0 it leaves. -/
theorem holdStep_leaves (hsettling : d.health = .settling) (hmissing : d.missing = 0)
    (hhold : (if r.kind = .pair ∧ (metric < r.envelopeLow ∨ r.envelopeHigh < metric) then r.settlingHold
      else d.hold - 1) = 0) :
    holdStep r (isExcursion r metric) false d = SlotState.followed { d with hold := 0 } := by
  unfold holdStep
  simp only [hsettling, and_self, if_true, isExcursion_iff, hhold]
  simp [SlotState.followed, SlotState.quiet, hmissing]

/-- The sample that made the entry step counts no hold down. -/
theorem holdStep_entered (excursion : Bool) : holdStep r excursion true d = d := if_neg (by simp)

end

/-- Settles O28: the envelope, the hold, and the records. -/
theorem settlingSampleJudged : Obligations.SettlingSampleJudged := by
  intro s run f m i htakes hfinds hsettling r p metric outside excursion good decays hold d overLimit
  have hjudged : (s.slot i).health.isJudged = true := (Health.isJudged_iff _).mpr (.inl hsettling)
  obtain ⟨hlatched, hmade⟩ := Health.judged_free hjudged
  have hkind : m.kind = r.kind := hfinds.2.2.2.1
  have hslot : (s.sampled f i m).slot i = sampledSlot s i m := by rw [sampled_slot, if_pos rfl]
  let e : SlotState := { s.slot i with validTotal := (s.slot i).validTotal + 1, indication := true, missing := 0 }
  have hentered : { entryStep r { s.slot i with validTotal := (s.slot i).validTotal + 1, indication := true } with
      missing := 0 } = e := by rw [entryStep_of_not_made r (by exact hmade)]
  have hhold : (if r.kind = .pair ∧ (metric < r.envelopeLow ∨ r.envelopeHigh < metric) then r.settlingHold
      else (s.slot i).hold - 1) = hold := by rw [← hkind]
  have hover : overLimit → sampledSlot s i m = d.enterFaulted .envelope := fun hover => by
    rw [sampledSlot_of_free hlatched, judge_overLimit hentered hjudged (by rw [← hkind]; exact hover)]
    rfl
  have hstays : ¬overLimit → 0 < hold → sampledSlot s i m = d := fun hunder hpositive => by
    have hheld := holdStep_stays (d := e.enveloped r.kind r metric) hsettling hhold hpositive
    rw [sampledSlot_of_free hlatched, judge_stays hentered hsettling (by rw [← hkind]; exact hunder)
      ((congrArg (holdStep r _ · _) hmade).trans hheld), ← hkind]
    rfl
  have hleaves : ¬overLimit → hold = 0 → sampledSlot s i m = d.followed := fun hunder hzero => by
    have hheld := holdStep_leaves (d := e.enveloped r.kind r metric) hsettling (by rfl) (hhold.trans hzero)
    have hd : d = { d with hold := 0 } := congrArg (fun hold => { d with hold }) hzero
    rw [sampledSlot_of_free hlatched, judge_leaves hentered hsettling (by rw [← hkind]; exact hunder)
      ((congrArg (holdStep r _ · _) hmade).trans hheld), ← hkind, hd]
    rfl
  refine ⟨_, exec_validSample htakes hfinds, ?_⟩
  rw [hslot]
  refine ⟨hover, hstays, hleaves, ?_⟩
  rw [sampled_queue hfinds, judgeRecords_of_judged hjudged, hsettling]
  refine congrArg (fun records => s.queue.postEach m.cycle (records ++ _)) ?_
  by_cases hlimit : overLimit
  · have hhealth : (sampledSlot s i m).health = .faulted .envelope := congrArg SlotState.health (hover hlimit)
    rw [hhealth, healthRecord_faulted r i rfl]
    rfl
  obtain hzero | hpositive := Nat.eq_zero_or_pos hold
  · have hafter : (sampledSlot s i m).health.inPair = true := by
      rw [hleaves hlimit hzero]
      exact followed_inPair d
    obtain hhealth | hhealth := (Health.inPair_iff _).mp hafter <;>
      exact hhealth ▸ healthRecord_crossing r i (by decide) rfl _
  · have hhealth : (sampledSlot s i m).health = .settling :=
      (congrArg SlotState.health (hstays hlimit hpositive)).trans hsettling
    rw [hhealth, healthRecord_same]

/-! ## A slot that enters (R24, R25) -/

/-- A slot that makes the entry step is free of a latched fault and out of the pair. -/
theorem Health.entering_free {h : Health} (hmakes : h = .acquiring ∨ h = .faulted .lost ∨ h = .faulted .stall) :
    h.makesEntry = true ∧ h.isLatchedFault = false ∧ h.inPair = false := by
  obtain rfl | rfl | rfl := hmakes <;> exact ⟨rfl, rfl, rfl⟩

/-- The record of the entry stands whatever the slot's NOTE_SUSPECT. -/
theorem healthRecord_entry (r : SlotRecord) (i : Fin 32) {h entered : Health}
    (hmakes : h = .acquiring ∨ h = .faulted .lost ∨ h = .faulted .stall) (hjudged : entered.isJudged = true) :
    healthRecord r i h entered (changeCause h entered) =
      [(3, .health i h.name entered.name (changeCause h entered))] := by
  have hne : h ≠ entered := by
    rintro rfl
    obtain rfl | rfl | rfl := hmakes <;> cases hjudged
  exact healthRecord_crossing r i hne (by rw [(Health.entering_free hmakes).2.2]; rfl) _

/-- A change from FAULTED to a judged state carries the cause it removes. -/
theorem changeCause_removed {entered : Health} (hjudged : entered.isJudged = true) (cause : FaultCause) :
    changeCause (.faulted cause) entered = .fault cause := by
  obtain rfl | rfl | rfl := (Health.isJudged_iff entered).mp hjudged <;> rfl

/-- Settles O29: the entry step, the envelope, and the records. -/
theorem validSampleEntersSettling : Obligations.ValidSampleEntersSettling := by
  intro s run f m i htakes hfinds hmakes hposition r p metric outside excursion good decays entered removed d overLimit
  obtain ⟨hmade, hlatched, hout⟩ := Health.entering_free hmakes
  have hkind : m.kind = r.kind := hfinds.2.2.2.1
  have hslot : (s.sampled f i m).slot i = sampledSlot s i m := by rw [sampled_slot, if_pos rfl]
  have hjudged : entered.isJudged = true := by
    simp only [entered]
    split_ifs <;> rfl
  let e : SlotState := { s.slot i with
    validTotal := (s.slot i).validTotal + 1, indication := true, missing := 0, health := entered, hold := r.settlingHold }
  have hstep : (entryStep r (s.slot i)).health = entered := congrArg SlotState.health (if_pos hmade)
  have hentered : { entryStep r { s.slot i with validTotal := (s.slot i).validTotal + 1, indication := true } with
      missing := 0 } = e := by rw [entryStep, if_pos (by exact hmade)]
  have hover : overLimit → sampledSlot s i m = d.enterFaulted .envelope := fun hover => by
    rw [sampledSlot_of_free hlatched, judge_overLimit hentered hjudged (by rw [← hkind]; exact hover)]
    rfl
  have hsettles : ¬overLimit → 0 < r.settlingHold → sampledSlot s i m = d := fun hunder hpositive => by
    have hsettling : e.health = .settling := if_neg (by omega)
    rw [sampledSlot_of_free hlatched, judge_stays (hold := r.settlingHold) hentered hsettling
      (by rw [← hkind]; exact hunder) ((congrArg (holdStep r _ · _) hmade).trans (holdStep_entered _)), ← hkind]
    rfl
  have htracks : ¬overLimit → r.settlingHold = 0 → sampledSlot s i m = d.followed := fun hunder hzero => by
    have hpair : e.health.inPair = true := congrArg Health.inPair (if_pos hzero)
    rw [sampledSlot_of_free hlatched, judge_rated hentered hpair (by rw [← hkind]; exact hunder)
      (rateStep_of_no_position r p m.cycle hposition), ← hkind]
    rfl
  refine ⟨_, exec_validSample htakes hfinds, ?_⟩
  rw [hslot]
  refine ⟨hover, hsettles, htracks, ?_⟩
  rw [sampled_queue hfinds, hstep, judgeRecords]
  refine congrArg (fun records => s.queue.postEach m.cycle (records ++ _)) (congrArg₂ _ ?_ ?_)
  · have hremoved : changeCause (s.slot i).health entered = removed := by
      obtain h | h | h := hmakes <;> simp only [removed, h]
      · exact changeCause_of_not_faulted rfl (Health.not_faulted_of_judged hjudged)
      · exact changeCause_removed hjudged .lost
      · exact changeCause_removed hjudged .stall
    rw [healthRecord_entry r i hmakes hjudged, hremoved]
  by_cases hlimit : overLimit
  · have hhealth : (sampledSlot s i m).health = .faulted .envelope := congrArg SlotState.health (hover hlimit)
    rw [hhealth, healthRecord_faulted r i (Health.not_faulted_of_judged hjudged)]
  obtain hzero | hpositive := Nat.eq_zero_or_pos r.settlingHold
  · have hafter : (sampledSlot s i m).health.inPair = true := by
      rw [htracks hlimit hzero]
      exact followed_inPair d
    have htracking : entered = .tracking := if_pos hzero
    rw [htracking]
    obtain hhealth | hhealth := (Health.inPair_iff _).mp hafter
    · rw [hhealth, healthRecord_same]
    · rw [hhealth, healthRecord_inPair r i rfl rfl]
      simp [Health.name]
  · have hhealth : (sampledSlot s i m).health = .settling :=
      (congrArg SlotState.health (hsettles hlimit hpositive)).trans (if_neg (by omega))
    have hsettling : entered = .settling := if_neg (by omega)
    rw [hhealth, hsettling, healthRecord_same]

end Sys2Proof.Machine
end

section
/-! PROOF. The byte encodings: fields of several bytes, record contents, and the bodies of OPEN, CLOSE and SAMPLE (R3, R78, R136,
R166). -/

namespace Sys2Proof.Machine

/-! ## Fields of two and three bytes -/

@[simp] theorem be16_extract (w : Word) : be16 (w.extractLsb' 8 8) (w.extractLsb' 0 8) = w := by
  unfold be16
  rw [BitVec.extractLsb'_append_extractLsb'_eq_extractLsb' (by rfl)]
  exact BitVec.extractLsb'_eq_self

@[simp] theorem bytes16_be16 (hi lo : Byte) : bytes16 (be16 hi lo) = [hi, lo] := by
  unfold bytes16 be16
  rw [BitVec.extractLsb'_append_eq_left, BitVec.extractLsb'_append_eq_right]

@[simp] theorem be24_extract (w : Ticks) : be24 (w.extractLsb' 16 8) (w.extractLsb' 8 8) (w.extractLsb' 0 8) = w := by
  unfold be24
  rw [BitVec.extractLsb'_append_extractLsb'_eq_extractLsb' (by rfl),
    BitVec.extractLsb'_append_extractLsb'_eq_extractLsb' (by rfl)]
  exact BitVec.extractLsb'_eq_self

@[simp] theorem bytes24_be24 (hi mid lo : Byte) : bytes24 (be24 hi mid lo) = [hi, mid, lo] := by
  unfold bytes24 be24
  have hmid : (hi ++ (mid ++ lo)).extractLsb' 8 8 = mid := by
    rw [BitVec.extractLsb'_append_eq_of_add_le (by decide), BitVec.extractLsb'_append_eq_left]
  have hlo : (hi ++ (mid ++ lo)).extractLsb' 0 8 = lo := by
    rw [BitVec.extractLsb'_append_eq_of_add_le (by decide), BitVec.extractLsb'_append_eq_right]
  rw [BitVec.extractLsb'_append_eq_left, hmid, hlo]

/-! ## Fields of one byte -/

/-- A byte that names one of two values by 0 and 1. -/
theorem twoOf_eq_some_iff {α : Type} {b : Byte} {x y k : α} (code : α → Byte) (hx : code x = 0) (hy : code y = 1)
    (hall : k = x ∨ k = y) : (if b = 0 then some x else if b = 1 then some y else none) = some k ↔ b = code k := by
  have hne : x ≠ y := by
    rintro rfl
    exact absurd (hx.symm.trans hy) (by decide)
  by_cases hzero : b = 0
  · subst hzero
    obtain rfl | rfl := hall
    · simp [hx]
    · simp [hy, hne]
  rw [if_neg hzero]
  by_cases hone : b = 1
  · subst hone
    obtain rfl | rfl := hall
    · simp [hx, hne.symm]
    · simp [hy]
  rw [if_neg hone]
  obtain rfl | rfl := hall
  · exact iff_of_false (Option.some_ne_none _).symm (hx ▸ hzero)
  · exact iff_of_false (Option.some_ne_none _).symm (hy ▸ hone)

theorem boolOf_eq_some_iff {b : Byte} {x : Bool} : boolOf b = some x ↔ b = boolByte x :=
  twoOf_eq_some_iff boolByte rfl rfl (by cases x <;> simp)

theorem kindOf_eq_some_iff {b : Byte} {k : SampleKind} : kindOf b = some k ↔ b = k.code :=
  twoOf_eq_some_iff SampleKind.code rfl rfl (by cases k <;> simp)

theorem formOf_eq_some_iff {b : Byte} {k : EntryForm} : formOf b = some k ↔ b = k.code :=
  twoOf_eq_some_iff EntryForm.code rfl rfl (by cases k <;> simp)

theorem entryModeOf_eq_some_iff {b : Byte} {k : EntryMode} : entryModeOf b = some k ↔ b = k.code :=
  twoOf_eq_some_iff EntryMode.code rfl rfl (by cases k <;> simp)

/-- A number below 256 and the byte that carries it. -/
theorem eq_byteOf_iff {b : Byte} {n : Nat} (h : n < 256) : b = byteOf n ↔ b.toNat = n := by
  rw [← BitVec.toNat_inj, byteOf, BitVec.toNat_ofNat, Nat.mod_eq_of_lt h]

@[simp] theorem byteOf_toNat (b : Byte) : byteOf b.toNat = b := by simp [byteOf]

theorem toNat_byteOf {n : Nat} (h : n < 256) : (byteOf n).toNat = n := (eq_byteOf_iff h).mp rfl

theorem indexOf_iff_byteOf {n : Nat} (hn : n ≤ 256) {b : Byte} {i : Fin n} : indexOf n b = some i ↔ b = byteOf i.val := by
  rw [indexOf_eq_some_iff, eq_byteOf_iff (by omega)]

theorem partnerOf_eq_some_iff {b : Byte} {p : Option (Fin 32)} : partnerOf b = some p ↔ b = partnerCode p := by
  unfold partnerOf
  split_ifs with habsent
  · subst habsent
    cases p with
    | none => exact iff_of_true rfl rfl
    | some i =>
      refine iff_of_false (by simp) fun hbyte => ?_
      have hi : (255 : Byte).toNat = i.val := (eq_byteOf_iff (by omega)).mp hbyte
      exact absurd hi (show (255 : Nat) ≠ i.val by omega)
  · cases p with
    | none => exact iff_of_false (by simp) habsent
    | some i => simp [partnerCode, indexOf_iff_byteOf (show 32 ≤ 256 by decide)]

/-- The flags byte of a slot record is the index below 4 that its two flags make. -/
theorem slotFlags_iff {b : Byte} {r : SlotRecord} : slotFlags r = b ↔
    ∃ flags : Fin 4, indexOf 4 b = some flags ∧ decide (flags.val % 2 = 1) = r.rewrite ∧
      decide (2 ≤ flags.val) = r.noteSuspect := by
  simp only [indexOf_iff_byteOf (show 4 ≤ 256 by decide)]
  constructor
  · rintro rfl
    cases hrewrite : r.rewrite <;> cases hnote : r.noteSuspect
    · exact ⟨0, by simp [slotFlags, hrewrite, hnote, byteOf]⟩
    · exact ⟨2, by simp [slotFlags, hrewrite, hnote, byteOf]⟩
    · exact ⟨1, by simp [slotFlags, hrewrite, hnote, byteOf]⟩
    · exact ⟨3, by simp [slotFlags, hrewrite, hnote, byteOf]⟩
  · rintro ⟨flags, rfl, hrewrite, hnote⟩
    unfold slotFlags
    rw [← hrewrite, ← hnote]
    fin_cases flags <;> rfl

/-! ## Record contents (R136, R166) -/

/-- A signed field of two bytes within its range. -/
theorem toInt_ofInt16 {x : Int} (hlo : -2048 ≤ x) (hhi : x ≤ 2047) : (BitVec.ofInt 16 x).toInt = x := by
  rw [BitVec.toInt_ofInt]
  exact Int.bmod_eq_of_le (by omega) (by omega)

/-- An unsigned field of two bytes within its range. -/
theorem toNat_ofNat16 {n : Nat} (h : n < 65536) : (BitVec.ofNat 16 n).toNat = n := by
  rw [BitVec.toNat_ofNat]
  exact Nat.mod_eq_of_lt h

/-- The bytes read as a slot record are its content. -/
theorem parseSlotRecord_eq_some_iff {bytes : List Byte} {r : SlotRecord} :
    parseSlotRecord bytes = some r ↔ r.inRange = true ∧ bytes = r.content := by
  constructor
  · intro h
    unfold parseSlotRecord at h
    split at h
    · simp only [Option.bind_eq_bind, Option.bind_eq_some_iff, Option.ite_none_right_eq_some, Option.some.injEq] at h
      obtain ⟨configured, hcfg, subchannel, hsub, kind, hkind, partner, hpartner, flags, hflags, hrange, rfl⟩ := h
      refine ⟨hrange, ?_⟩
      rw [boolOf_eq_some_iff] at hcfg
      rw [indexOf_iff_byteOf (by decide)] at hsub
      rw [kindOf_eq_some_iff] at hkind
      rw [partnerOf_eq_some_iff] at hpartner
      have hslotFlags : ∀ r : SlotRecord, r.rewrite = decide (flags.val % 2 = 1) → r.noteSuspect = decide (2 ≤ flags.val) →
          slotFlags r = _ := fun r hrewrite hnote => slotFlags_iff.mpr ⟨flags, hflags, hrewrite.symm, hnote.symm⟩
      simp only [SlotRecord.content, byteOf_toNat, bytes16_be16, BitVec.ofInt_toInt, BitVec.ofNat_toNat, BitVec.setWidth_eq,
        hslotFlags, hcfg, hsub, hkind, hpartner]
      rfl
    · cases h
  · rintro ⟨hrange, rfl⟩
    obtain ⟨flags, hflags, hrewrite, hnote⟩ := slotFlags_iff.mp (rfl : slotFlags r = slotFlags r)
    have hfields := hrange
    simp only [SlotRecord.inRange, Bool.and_eq_true, decide_eq_true_eq] at hfields
    obtain ⟨⟨⟨⟨⟨⟨⟨⟨⟨⟨⟨⟨⟨⟨hnode, hresolution⟩, hofsA⟩, hofsB⟩, hgain⟩, hlow⟩, hhigh⟩, hlimit⟩, hdecay⟩, hrate⟩, hratePersistence⟩,
      hmissing⟩, htolerance⟩, hpersistence⟩, hhold⟩ := hfields
    simp only [SlotRecord.content, bytes16, List.cons_append, List.nil_append, parseSlotRecord, Option.bind_eq_bind,
      Option.bind_some, boolOf_eq_some_iff.mpr rfl, (indexOf_iff_byteOf (show 4 ≤ 256 by decide)).mpr rfl, kindOf_eq_some_iff.mpr rfl,
      partnerOf_eq_some_iff.mpr rfl, hflags, hrewrite, hnote, be16_extract,
      toNat_byteOf (show r.node < 256 by omega), toNat_byteOf (show r.resolution < 256 by omega),
      toInt_ofInt16 hofsA.1 hofsA.2, toInt_ofInt16 hofsB.1 hofsB.2, toNat_ofNat16 (show r.gainB < 65536 by omega),
      toNat_ofNat16 (show r.envelopeLow < 65536 by omega), toNat_ofNat16 (show r.envelopeHigh < 65536 by omega),
      toNat_byteOf (show r.envelopeLimit < 256 by omega), toNat_byteOf (show r.decayRun < 256 by omega),
      toNat_ofNat16 (show r.rateLimit < 65536 by omega), toNat_byteOf (show r.ratePersistence < 256 by omega),
      toNat_byteOf (show r.missingLimit < 256 by omega), toNat_ofNat16 (show r.mismatchTolerance < 65536 by omega),
      toNat_byteOf (show r.mismatchPersistence < 256 by omega), toNat_byteOf (show r.settlingHold < 256 by omega)]
    exact if_pos hrange

/-- The mask of an entry is the index below 16 that its byte names. -/
theorem mask_byteOf (mask : BitVec 4) : indexOf 16 (byteOf mask.toNat) = some mask.toFin :=
  (indexOf_iff_byteOf (by decide)).mpr rfl

/-- The bytes read as an entry record are its content. -/
theorem parseEntryRecord_eq_some_iff {bytes : List Byte} {r : EntryRecord} :
    parseEntryRecord bytes = some r ↔ r.inRange = true ∧ bytes = r.content := by
  constructor
  · intro h
    unfold parseEntryRecord at h
    split at h
    · simp only [Option.bind_eq_bind, Option.bind_eq_some_iff, Option.ite_none_right_eq_some, Option.some.injEq] at h
      obtain ⟨used, hused, slot, hslot, form, hform, mode, hmode, priority, hpriority, mask, hmask, hrange, rfl⟩ := h
      refine ⟨hrange, ?_⟩
      rw [boolOf_eq_some_iff] at hused
      rw [indexOf_iff_byteOf (by decide)] at hslot hpriority hmask
      rw [formOf_eq_some_iff] at hform
      rw [entryModeOf_eq_some_iff] at hmode
      have hbits : (BitVec.ofNat 4 mask.val).toNat = mask.val := by
        rw [BitVec.toNat_ofNat]
        exact Nat.mod_eq_of_lt mask.isLt
      simp only [EntryRecord.content, bytes16_be16, BitVec.ofNat_toNat, BitVec.setWidth_eq, hbits, hused, hslot, hform, hmode,
        hpriority, hmask]
      rfl
    · cases h
  · rintro ⟨hrange, rfl⟩
    have hhysteresis : r.hysteresis ≤ 4095 := by simpa [EntryRecord.inRange] using hrange
    have hmask : BitVec.ofNat 4 r.mask.toFin.val = r.mask := by simp
    simp only [EntryRecord.content, bytes16, List.cons_append, List.nil_append, parseEntryRecord, Option.bind_eq_bind,
      Option.bind_some, boolOf_eq_some_iff.mpr rfl, (indexOf_iff_byteOf (show 32 ≤ 256 by decide)).mpr rfl,
      formOf_eq_some_iff.mpr rfl, entryModeOf_eq_some_iff.mpr rfl, (indexOf_iff_byteOf (show 4 ≤ 256 by decide)).mpr rfl,
      mask_byteOf, be16_extract, toNat_ofNat16 (show r.hysteresis < 65536 by omega), hmask]
    exact if_pos hrange

/-- The bytes read as a link record are its content. -/
theorem parseLinkRecord_eq_some_iff {bytes : List Byte} {r : LinkRecord} :
    parseLinkRecord bytes = some r ↔ r.inRange = true ∧ bytes = r.content := by
  constructor
  · intro h
    unfold parseLinkRecord at h
    split at h
    · simp only [Option.ite_none_right_eq_some, Option.some.injEq] at h
      obtain ⟨hrange, rfl⟩ := h
      refine ⟨hrange, ?_⟩
      simp only [LinkRecord.content, bytes16_be16, bytes24_be24]
      rfl
    · cases h
  · rintro ⟨hrange, rfl⟩
    simp only [LinkRecord.content, bytes16, bytes24, List.cons_append, List.nil_append, parseLinkRecord, be16_extract,
      be24_extract]
    exact if_pos hrange

/-- Settles O9: each of the three tables. -/
theorem recordContentsReadBack : Obligations.RecordContentsReadBack :=
  ⟨fun _ _ => parseSlotRecord_eq_some_iff, fun _ _ => parseEntryRecord_eq_some_iff, fun _ _ => parseLinkRecord_eq_some_iff,
    SlotRecord.content_length, EntryRecord.content_length, LinkRecord.content_length⟩

/-! ## Link frames (R3, R78, R181) -/

/-- The bytes of an acknowledgement list are its pairs, one behind the other. -/
theorem parsePairs_eq_some_iff : ∀ (bytes : List Byte) (acks : List (Byte × Byte)),
    parsePairs bytes = some acks ↔ bytes = acks.flatMap fun a => [a.1, a.2]
  | [], acks => by
    cases acks <;> simp [parsePairs]
  | [b], acks => by
    cases acks <;> simp [parsePairs]
  | a :: n :: rest, acks => by
    cases acks with
    | nil => simp [parsePairs]
    | cons x acks =>
      obtain ⟨b, k⟩ := x
      have hrest := parsePairs_eq_some_iff rest acks
      simp only [parsePairs, Option.map_eq_some_iff, List.cons.injEq, Prod.mk.injEq, List.flatMap_cons, List.cons_append,
        List.nil_append]
      rw [← hrest]
      exact ⟨fun ⟨_, hparse, ⟨ha, hn⟩, hl⟩ => ⟨ha, hn, hl ▸ hparse⟩, fun ⟨ha, hn, hparse⟩ => ⟨acks, hparse, ⟨ha, hn⟩, rfl⟩⟩

/-- An OPEN's form (R78). -/
theorem parseOpen_eq_some_iff (body : List Byte) (o : OpenBody) : parseOpen body = some o ↔ o.acks.length ≤ 4 ∧
    body = bytes16 o.cycle ++ [BitVec.ofNat 8 o.acks.length] ++ o.acks.flatMap fun a => [a.1, a.2] := by
  have hpairs : ∀ acks : List (Byte × Byte), (acks.flatMap fun a => [a.1, a.2]).length = 2 * acks.length := by
    simp [List.length_flatMap, Nat.mul_comm]
  constructor
  · intro h
    unfold parseOpen at h
    split at h
    · rename_i c1 c0 count rest
      simp only [Option.ite_none_right_eq_some, Option.map_eq_some_iff] at h
      obtain ⟨⟨hcount, hlength⟩, acks, hacks, rfl⟩ := h
      rw [parsePairs_eq_some_iff] at hacks
      have hequal : acks.length = count.toNat := by
        rw [hacks, hpairs] at hlength
        omega
      refine ⟨hequal ▸ hcount, ?_⟩
      simp only [bytes16_be16, hequal, BitVec.ofNat_toNat, BitVec.setWidth_eq, ← hacks]
      rfl
    · cases h
  · rintro ⟨hlength, rfl⟩
    have hcount : (BitVec.ofNat 8 o.acks.length).toNat = o.acks.length := toNat_byteOf (by omega)
    simp only [bytes16, List.cons_append, List.nil_append, parseOpen, be16_extract, hcount, hpairs, hlength, and_self, if_true,
      (parsePairs_eq_some_iff _ _).mpr rfl, Option.map_some]

/-- A CLOSE's form (R78). -/
theorem parseClose_eq_some_iff (body : List Byte) (c : Word) : parseClose body = some c ↔
    (∃ flags : Byte, flags.getLsbD 0 = false ∧ body = bytes16 c ++ [flags]) ∨
    (∃ flags monitor : Byte, flags.getLsbD 0 = true ∧ body = bytes16 c ++ [flags, monitor]) := by
  constructor
  · intro h
    unfold parseClose at h
    split at h
    · rename_i c1 c0 flags
      simp only [Option.ite_none_left_eq_some, Option.some.injEq, Bool.not_eq_true] at h
      obtain ⟨hflags, rfl⟩ := h
      exact .inl ⟨flags, hflags, by rw [bytes16_be16]; rfl⟩
    · rename_i c1 c0 flags monitor
      simp only [Option.ite_none_right_eq_some, Option.some.injEq] at h
      obtain ⟨hflags, rfl⟩ := h
      exact .inr ⟨flags, monitor, hflags, by rw [bytes16_be16]; rfl⟩
    · cases h
  · rintro (⟨flags, hflags, rfl⟩ | ⟨flags, monitor, hflags, rfl⟩) <;>
      simp only [bytes16, List.cons_append, List.nil_append, parseClose, be16_extract, hflags, Bool.false_eq_true, if_false,
        if_true]

theorem subchannelOf_val (b : Byte) : (subchannelOf b).val = b.toNat % 4 := by
  simp [subchannelOf]

/-- A SAMPLE's form (R3, R181). -/
theorem parseSample_eq_some_iff (address : Byte) (body : List Byte) (m : Sample) : parseSample address body = some m ↔
    m.address = address ∧ ∃ first : Byte, m.subchannel.val = first.toNat % 4 ∧
      ((m.kind = .scalar ∧ first.getLsbD 7 = false ∧ m.a = 0 ∧ m.b = 0 ∧
          body = [first] ++ bytes16 m.cycle ++ bytes16 m.position ++ [m.marks]) ∨
        (m.kind = .pair ∧ first.getLsbD 7 = true ∧ ∃ a b : Word, m.a = a.toInt ∧ m.b = b.toInt ∧
          body = [first] ++ bytes16 m.cycle ++ bytes16 m.position ++ [m.marks] ++ bytes16 a ++ bytes16 b)) := by
  have hmsb : ∀ b : Byte, b.msb = b.getLsbD 7 := fun b => BitVec.msb_eq_getLsbD_last b
  constructor
  · intro h
    unfold parseSample at h
    split at h
    · rename_i k c1 c0 p1 p0 marks
      simp only [Option.ite_none_left_eq_some, Option.some.injEq, Bool.not_eq_true] at h
      obtain ⟨hkind, rfl⟩ := h
      refine ⟨rfl, k, subchannelOf_val k, .inl ⟨rfl, hmsb k ▸ hkind, rfl, rfl, ?_⟩⟩
      rw [bytes16_be16, bytes16_be16]
      rfl
    · rename_i k c1 c0 p1 p0 marks a1 a0 b1 b0
      simp only [Option.ite_none_right_eq_some, Option.some.injEq] at h
      obtain ⟨hkind, rfl⟩ := h
      refine ⟨rfl, k, subchannelOf_val k, .inr ⟨rfl, hmsb k ▸ hkind, be16 a1 a0, be16 b1 b0, rfl, rfl, ?_⟩⟩
      simp only [bytes16_be16]
      rfl
    · cases h
  · obtain ⟨_, kind, subchannel, cycle, position, marks, a, b⟩ := m
    rintro ⟨rfl, first, hsubchannel, hform⟩
    obtain rfl : subchannel = subchannelOf first := Fin.ext (hsubchannel.trans (subchannelOf_val first).symm)
    obtain ⟨rfl, hbit, rfl, rfl, rfl⟩ | ⟨rfl, hbit, a', b', rfl, rfl, rfl⟩ := hform <;>
      simp only [bytes16, List.cons_append, List.nil_append, parseSample, be16_extract, hmsb, hbit, Bool.false_eq_true,
        if_false, if_true]

/-- Settles O10: each of the three forms. -/
theorem linkFrameForms : Obligations.LinkFrameForms :=
  ⟨parseOpen_eq_some_iff, parseClose_eq_some_iff, parseSample_eq_some_iff⟩

end Sys2Proof.Machine
end

section
/-! PROOF. The lane delivers what is sent (R190, R192). -/

namespace Sys2Proof.Machine

/-! ## Bits -/

theorem bitsValue_cons (b : Bool) (rest : List Bool) : bitsValue (b :: rest) = Nat.bit b (bitsValue rest) := by
  cases b <;> simp [bitsValue, Nat.bit, Nat.add_comm]

/-- Each bit of the value is the bit of the list. -/
theorem testBit_bitsValue (l : List Bool) (i : Nat) : (bitsValue l).testBit i = l.getD i false := by
  induction l generalizing i with
  | nil => simp [bitsValue]
  | cons b rest ih =>
    rw [bitsValue_cons]
    cases i with
    | zero => simp
    | succ i => simp [Nat.testBit_bit_succ, ih]

/-- Eight data bits, least significant first, are their byte. -/
theorem bitsValue_byte (b : Byte) : BitVec.ofNat 8 (bitsValue [b[0], b[1], b[2], b[3], b[4], b[5], b[6], b[7]]) = b := by
  apply BitVec.eq_of_getLsbD_eq
  intro i hi
  rw [BitVec.getLsbD_ofNat, testBit_bitsValue]
  interval_cases i <;> simp

/-! ## A receiver, sample by sample -/

theorem receive_cons_none {r : LaneReceiver} {high : Bool} (h : (r.sample high).2 = none) (rest : List Bool) :
    r.receive (high :: rest) = (r.sample high).1.receive rest := by
  simp only [LaneReceiver.receive, h]

theorem receive_cons_some {r : LaneReceiver} {high : Bool} {run : Run} (h : (r.sample high).2 = some run)
    (rest : List Bool) : r.receive (high :: rest) = run :: (r.sample high).1.receive rest := by
  simp only [LaneReceiver.receive, h]

/-- A byte on the lane is taken into the run of a receiver that waits for one. -/
theorem receive_sendByte {r : LaneReceiver} (hbits : r.bits = none) (hwaits : r.waitsHigh = false) (b : Byte)
    (rest : List Bool) : r.receive (sendByte b ++ rest) =
      LaneReceiver.receive { r with highTicks := 0, bytes := r.bytes ++ [b] } rest := by
  simp [sendByte, LaneReceiver.receive, LaneReceiver.sample, LaneReceiver.betweenBytes, LaneReceiver.inByte, hbits, hwaits,
    bitsValue_byte]

/-- A receiver on a good lane between the bytes of a run: how long the lane has been high, and the run so far. -/
def LaneReceiver.between (highTicks : Nat) (bytes : List Byte) : LaneReceiver :=
  { LaneReceiver.idle with highTicks, bytes }

/-- The bytes of a frame, one behind the other. -/
theorem receive_bytes (more : List Byte) (rest : List Bool) (sofar : List Byte) :
    (LaneReceiver.between 0 sofar).receive (more.flatMap sendByte ++ rest) =
      (LaneReceiver.between 0 (sofar ++ more)).receive rest := by
  induction more generalizing sofar with
  | nil => simp
  | cons b more ih =>
    rw [List.flatMap_cons, List.append_assoc, receive_sendByte rfl rfl]
    exact (ih (sofar ++ [b])).trans (by rw [List.append_assoc]; rfl)

/-- The idle behind a run ends it after 20 ticks. -/
theorem receive_idle {bytes : List Byte} (hrun : bytes ≠ []) {n : Nat} (hn : 0 < n) {highTicks : Nat}
    (hticks : highTicks + n = 20) (rest : List Bool) :
    (LaneReceiver.between highTicks bytes).receive (List.replicate n true ++ rest) =
      { bytes, framingError := false, early := false } :: LaneReceiver.idle.receive rest := by
  induction n generalizing highTicks with
  | zero => omega
  | succ n ih =>
    rw [List.replicate_succ, List.cons_append]
    by_cases hlast : n = 0
    · have hsample : (LaneReceiver.between highTicks bytes).sample true =
          (.idle, some { bytes, framingError := false, early := false }) :=
        if_pos ⟨show 20 ≤ highTicks + 1 by omega, hrun⟩
      rw [receive_cons_some (congrArg Prod.snd hsample), hsample, hlast]
      rfl
    · have hsample : (LaneReceiver.between highTicks bytes).sample true =
          (LaneReceiver.between (highTicks + 1) bytes, none) :=
        if_neg fun h => absurd h.1 (show ¬20 ≤ highTicks + 1 by omega)
      rw [receive_cons_none (congrArg Prod.snd hsample), hsample]
      exact ih (by omega) (by omega)

/-- A frame is delivered as one run, and leaves the receiver idle. -/
theorem receive_sendFrame {bytes : List Byte} (hrun : bytes ≠ []) (rest : List Bool) :
    LaneReceiver.idle.receive (sendFrame bytes ++ rest) =
      { bytes, framingError := false, early := false } :: LaneReceiver.idle.receive rest := by
  rw [sendFrame, List.append_assoc]
  exact (receive_bytes bytes _ []).trans (receive_idle hrun (by decide) rfl rest)

/-- Frames sent one behind the other. -/
theorem receive_frames (frames : List (List Byte)) (hruns : ∀ b ∈ frames, b ≠ []) :
    LaneReceiver.idle.receive (frames.flatMap sendFrame) =
      frames.map fun b => { bytes := b, framingError := false, early := false } := by
  induction frames with
  | nil => rfl
  | cons b frames ih =>
    obtain ⟨hrun, hruns⟩ := List.forall_mem_cons.mp hruns
    rw [List.flatMap_cons, receive_sendFrame hrun, ih hruns]
    rfl

/-! ## The mark of an early run (R190) -/

/-- A sample keeps the mark of the run, delivers it with the run, and leaves a receiver that has delivered one idle. -/
theorem sample_early (r : LaneReceiver) (high : Bool) :
    ((r.sample high).2 = none ∧ (r.sample high).1.early = r.early) ∨
    ∃ run, r.sample high = (.idle, some run) ∧ run.early = r.early := by
  unfold LaneReceiver.sample
  split
  · left
    unfold LaneReceiver.inByte
    split_ifs <;> exact ⟨rfl, rfl⟩
  · unfold LaneReceiver.betweenBytes
    split_ifs
    · exact .inr ⟨_, rfl, rfl⟩
    · exact .inl ⟨rfl, rfl⟩
    · exact .inl ⟨rfl, rfl⟩
    · exact .inl ⟨rfl, rfl⟩

/-- The first run delivered bears the receiver's mark, and no run behind it bears one. -/
theorem receive_early {r : LaneReceiver} {levels : List Bool} {first : Run} {behind : List Run}
    (h : r.receive levels = first :: behind) : first.early = r.early ∧ ∀ run ∈ behind, run.early = false := by
  induction levels generalizing r first behind with
  | nil => cases h
  | cons high rest ih =>
    obtain ⟨hnone, hearly⟩ | ⟨run, hsample, hearly⟩ := sample_early r high
    · rw [receive_cons_none hnone] at h
      rw [← hearly]
      exact ih h
    · rw [receive_cons_some (congrArg Prod.snd hsample), hsample] at h
      obtain ⟨rfl, hbehind⟩ := List.cons.inj h
      refine ⟨hearly, ?_⟩
      cases behind with
      | nil => simp
      | cons next behind =>
        obtain ⟨hnext, hrest⟩ := ih hbehind
        exact List.forall_mem_cons.mpr ⟨hnext, hrest⟩

/-- Settles O7: the frames, and the mark. -/
theorem laneDeliversWhatIsSent : Obligations.LaneDeliversWhatIsSent := by
  refine ⟨receive_frames, fun r levels first behind h => ?_⟩
  obtain ⟨hfirst, hbehind⟩ := receive_early h
  refine ⟨?_, hbehind⟩
  rw [hfirst]
  simp [LaneReceiver.periodBegins, LaneReceiver.inRun]

end Sys2Proof.Machine
end

section
/-! PROOF. One tick: the timers, the happenings that fall due, and the levels of the lanes (R87, R90, R187, R190, R192, R194 to
R196). -/

namespace Sys2Proof.Machine

/-! ## The levels of a lane in transmission (R192) -/

/-- The bits of a frame on the lane, ten to a byte: a start bit, the data bits, a stop bit; the lane is high behind them. -/
theorem sent_getD (bytes : List Byte) (n : Nat) :
    (bytes[n / 10]? = none → (bytes.flatMap sendByte).getD n true = true) ∧
    (∀ b, bytes[n / 10]? = some b → (bytes.flatMap sendByte).getD n true =
      if n % 10 = 0 then false else if n % 10 = 9 then true else b.getLsbD (n % 10 - 1)) := by
  induction bytes generalizing n with
  | nil => simp
  | cons b bytes ih =>
    rw [List.flatMap_cons]
    have hlength : (sendByte b).length = 10 := rfl
    by_cases hfirst : n < 10
    · have hzero : n / 10 = 0 := Nat.div_eq_of_lt hfirst
      rw [List.getD_append _ _ _ _ (hlength ▸ hfirst), hzero, Nat.mod_eq_of_lt hfirst]
      refine ⟨by simp, ?_⟩
      rintro b' ⟨⟩
      interval_cases n <;> rfl
    · have hnext : n / 10 = (n - 10) / 10 + 1 := by omega
      have hbit : n % 10 = (n - 10) % 10 := by omega
      rw [List.getD_append_right _ _ _ _ (hlength ▸ Nat.le_of_not_lt hfirst), hlength, hnext, hbit]
      exact ih (n - 10)

theorem laneLevel_idle (bytes : List Byte) {ticks : Nat} (h : ticks < 20) : laneLevel (some bytes) ticks = true := by
  have hlength : (List.replicate Config.idleTicks true).length = 20 := rfl
  simp only [laneLevel]
  rw [List.getD_append _ _ _ _ (hlength ▸ h)]
  interval_cases ticks <;> rfl

theorem laneLevel_bytes (bytes : List Byte) {ticks : Nat} (h : ¬ticks < 20) :
    laneLevel (some bytes) ticks = (bytes.flatMap sendByte).getD (ticks - 20) true := by
  have hlength : (List.replicate Config.idleTicks true).length = 20 := rfl
  simp only [laneLevel]
  rw [List.getD_append_right _ _ _ _ (hlength ▸ Nat.le_of_not_lt h), hlength]

/-! ## The happenings that fall due -/

/-- The commands that execute requests are none of the happenings. -/
theorem commandFor_ne (kind : Byte) :
    commandFor kind ≠ .resetEntry 10 ∧ commandFor kind ≠ .initialisationEnd ∧ commandFor kind ≠ .closeDeadlineExpiry ∧
    commandFor kind ≠ .periodMaximumExpiry ∧ commandFor kind ≠ .frameSentCp ∧ commandFor kind ≠ .frameSentSp := by
  unfold commandFor
  split <;> decide

/-- What falls due, each happening by its own condition. -/
theorem mem_dueCommands_iff (s : State) (c : Instr) : c ∈ dueCommands s ↔
    (c = .resetEntry 10 ∧ 10 ≤ s.pins.resetLow) ∨
    (c = .initialisationEnd ∧ s.pins.phase = .initialising ∧ 1000 ≤ s.pins.initialisationTicks) ∨
    (c = .closeDeadlineExpiry ∧ s.cycle.link = .opened ∧ s.cycle.deadlineTimer = some 0) ∨
    (c = .periodMaximumExpiry ∧ s.isSupervised = true ∧ s.cycle.periodTimer = some s.activeBank.link.periodMaximum) ∨
    (∃ q, s.commands.next = some q ∧ c = commandFor q.kind ∧ 500 ≤ s.commands.requestTimer) ∨
    (c = .frameSentCp ∧ ∃ bytes, s.frames.cpHead = some bytes ∧ 20 + 10 * bytes.length ≤ s.frames.cpTicks) ∨
    (c = .frameSentSp ∧ ∃ bytes, s.frames.spHead = some bytes ∧ 20 + 10 * bytes.length ≤ s.frames.spTicks) := by
  have hone : ∀ (p : Prop) [Decidable p] (d : Instr), c ∈ (if p then [d] else []) ↔ c = d ∧ p := by
    intro p _ d
    split_ifs with hp <;> simp [hp]
  unfold dueCommands
  simp only [List.mem_append, hone, Pins.holdsReset, decide_eq_true_eq, laneTicks, Config.idleTicks, Config.byteTicks, or_assoc]
  refine or_congr Iff.rfl (or_congr Iff.rfl (or_congr Iff.rfl (or_congr Iff.rfl (or_congr ?_ (or_congr ?_ ?_)))))
  · cases s.commands.next with
    | none => simp
    | some q => simpa only [Option.some.injEq, exists_eq_left'] using hone _ _
  · cases s.frames.cpHead with
    | none => simp
    | some bytes =>
      simp only [Option.some.injEq, exists_eq_left']
      exact hone _ _
  · cases s.frames.spHead with
    | none => simp
    | some bytes =>
      simp only [Option.some.injEq, exists_eq_left']
      exact hone _ _

section
variable (s : State)

theorem resetEntry_due : .resetEntry 10 ∈ dueCommands s ↔ 10 ≤ s.pins.resetLow := by
  simp [mem_dueCommands_iff, (commandFor_ne _).1.symm]

theorem initialisationEnd_due : .initialisationEnd ∈ dueCommands s ↔
    s.pins.phase = .initialising ∧ 1000 ≤ s.pins.initialisationTicks := by
  simp [mem_dueCommands_iff, (commandFor_ne _).2.1.symm]

theorem closeDeadlineExpiry_due : .closeDeadlineExpiry ∈ dueCommands s ↔
    s.cycle.link = .opened ∧ s.cycle.deadlineTimer = some 0 := by
  simp [mem_dueCommands_iff, (commandFor_ne _).2.2.1.symm]

theorem periodMaximumExpiry_due : .periodMaximumExpiry ∈ dueCommands s ↔
    s.isSupervised = true ∧ s.cycle.periodTimer = some s.activeBank.link.periodMaximum := by
  simp [mem_dueCommands_iff, (commandFor_ne _).2.2.2.1.symm]

theorem frameSentCp_due : .frameSentCp ∈ dueCommands s ↔
    ∃ bytes, s.frames.cpHead = some bytes ∧ 20 + 10 * bytes.length ≤ s.frames.cpTicks := by
  simp [mem_dueCommands_iff, (commandFor_ne _).2.2.2.2.1.symm]

theorem frameSentSp_due : .frameSentSp ∈ dueCommands s ↔
    ∃ bytes, s.frames.spHead = some bytes ∧ 20 + 10 * bytes.length ≤ s.frames.spTicks := by
  simp [mem_dueCommands_iff, (commandFor_ne _).2.2.2.2.2.symm]

theorem commandFor_due (kind : Byte) : commandFor kind ∈ dueCommands s ↔
    ∃ q, s.commands.next = some q ∧ commandFor kind = commandFor q.kind ∧ 500 ≤ s.commands.requestTimer := by
  obtain ⟨hreset, hend, hdeadline, hmaximum, hcp, hsp⟩ := commandFor_ne kind
  simp [mem_dueCommands_iff, hreset, hend, hdeadline, hmaximum, hcp, hsp]

end

theorem isSupervised_iff (s : State) : s.isSupervised = true ↔
    (s.cycle.link = .opened ∨ s.cycle.link = .closed) ∧ s.activeBank.link.periodMaximum ≠ 0 := by
  simp [State.isSupervised]

/-! ## The blocks after a tick -/

/-- A count down that stops at 0. -/
theorem countDown_eq (n : Word) : (if n = 0 then 0 else n - 1) = BitVec.ofNat 16 (n.toNat - 1) := by
  split_ifs with hzero
  · rw [hzero]
    rfl
  · have hpositive : n.toNat ≠ 0 := fun h => hzero (BitVec.eq_of_toNat_eq h)
    apply BitVec.eq_of_toNat_eq
    have hlt : n.toNat < 65536 := n.isLt
    simp only [BitVec.toNat_sub, BitVec.toNat_ofNat, show (1 : Word).toNat = 1 from rfl]
    omega

theorem CycleTracker.tick_eq (c : CycleTracker) : c.tick = { c with
    periodTimer := c.periodTimer.map fun n => BitVec.ofNat 24 (min 16777215 (n.toNat + 1))
    deadlineTimer := c.deadlineTimer.map fun n => BitVec.ofNat 16 (n.toNat - 1) } := by
  unfold CycleTracker.tick
  simp only [countDown_eq]
  rfl

theorem Pins.sampleReset_eq (p : Pins) :
    p.sampleReset = { p with resetLow := if p.resetLow = 0 then 0 else min 10 (p.resetLow + 1) } := by
  rw [Nat.min_comm]
  rfl

theorem Pins.tick_eq (p : Pins) : p.tick = { p with
    qualifier := if p.captureSampled = true then p.qualifier else p.qualifier.sample p.capture
    captureSampled := false
    resetLow := if p.resetLow = 0 then 0 else min 10 (p.resetLow + 1)
    initialisationTicks := if p.phase = .initialising then p.initialisationTicks + 1 else p.initialisationTicks } := by
  rw [Nat.min_comm]
  unfold Pins.tick
  cases p.captureSampled <;> rfl

theorem CommandUnit.isWaiting_iff (c : CommandUnit) : c.isWaiting = true ↔ ∃ h ∈ c.slots, h.pending = false := by
  simp [CommandUnit.isWaiting]

theorem CommandUnit.tick_eq (c : CommandUnit) : c.tick = { c with
    requestTimer := if ∃ h ∈ c.slots, h.pending = false then c.requestTimer + 1 else 0 } := by
  unfold CommandUnit.tick
  simp only [CommandUnit.isWaiting_iff]

/-- The head frame at CP. -/
theorem FramePath.cpHead_iff (p : FramePath) (bytes : List Byte) :
    p.cpHead = some bytes ↔ ∃ f rest, p.inbound = f :: rest ∧ f.bytes = bytes := by
  unfold FramePath.cpHead
  cases p.inbound <;> simp

/-- The head frame at SP: the first of the outbound buffer, once it has been handled. -/
theorem FramePath.spHead_iff (p : FramePath) (bytes : List Byte) :
    p.spHead = some bytes ↔ ∃ f rest, p.outbound = f :: rest ∧ f.handled = true ∧ f.run.bytes = bytes := by
  unfold FramePath.spHead
  cases p.outbound with
  | nil => simp
  | cons f rest => cases hhandled : f.handled <;> simp [hhandled]

/-- The command of a kind, as the table of kinds names it. -/
theorem commandFor_eq_lookup (kind : Byte) : commandFor kind =
    (([(0x01, .readEntry), (0x02, .writeShadow), (0x03, .syncShadow), (0x04, .commit), (0x05, .abortCommit),
       (0x06, .setMode), (0x08, .ackEvent), (0x09, .ackChannel), (0x0C, .readChannel), (0x0D, .readStatus),
       (0x0E, .clearCounters), (0x0F, .restart)] : List (Byte × Instr)).lookup kind).getD .unknownRequest := by
  cases hkind : requestKindOf kind with
  | some k =>
    obtain rfl := kind_eq_code hkind
    cases k <;> rfl
  | none =>
    have hunknown : ∀ k : RequestKind, kind ≠ k.code := by
      rintro k rfl
      simp at hkind
    have hbeq : ∀ k : RequestKind, (kind != k.code) = true := fun k => bne_iff_ne.mpr (hunknown k)
    have hnone : ([(0x01, .readEntry), (0x02, .writeShadow), (0x03, .syncShadow), (0x04, .commit), (0x05, .abortCommit),
        (0x06, .setMode), (0x08, .ackEvent), (0x09, .ackChannel), (0x0C, .readChannel), (0x0D, .readStatus),
        (0x0E, .clearCounters), (0x0F, .restart)] : List (Byte × Instr)).lookup kind = none := by
      simp only [List.lookup_eq_none_iff, List.forall_mem_cons, List.not_mem_nil, false_implies, implies_true, and_true]
      exact ⟨hbeq .readEntry, hbeq .writeShadow, hbeq .syncShadow, hbeq .commit, hbeq .abortCommit, hbeq .setMode,
        hbeq .ackEvent, hbeq .ackChannel, hbeq .readChannel, hbeq .readStatus, hbeq .clearCounters, hbeq .restart⟩
    rw [hnone]
    simp only [commandFor, hkind]
    rfl

/-- The oldest request that waits is the first that is not pending. -/
theorem CommandUnit.next_of_split {c : CommandUnit} {before after : List Holding} {q : Request}
    (hslots : c.slots = before ++ { request := q, pending := false } :: after) (hbefore : ∀ h ∈ before, h.pending = true) :
    c.next = some q := by
  have hnone : before.find? (fun h => !h.pending) = none := by simpa using hbefore
  simp [CommandUnit.next, hslots, List.find?_append, hnone]

theorem CommandUnit.next_of_pending {c : CommandUnit} (hpending : ∀ h ∈ c.slots, h.pending = true) : c.next = none := by
  simpa [CommandUnit.next] using hpending

/-- Settles O3: the part in reset, the levels, and the tick. -/
theorem tickAdvancesTimers : Obligations.TickAdvancesTimers := by
  intro s hpending lowTicks executing level
  have hexecuting : ∀ kind, executing kind = commandFor kind := fun kind => (commandFor_eq_lookup kind).symm
  have hlevel : ∀ bytes ticks, laneLevel (some bytes) ticks = level bytes ticks := by
    intro bytes ticks
    simp only [level]
    by_cases hidle : ticks < 20
    · rw [laneLevel_idle bytes hidle, if_pos hidle]
    · rw [laneLevel_bytes bytes hidle, if_neg hidle]
      obtain ⟨hnone, hsome⟩ := sent_getD bytes (ticks - 20)
      cases hbyte : bytes[(ticks - 20) / 10]? with
      | none => exact hnone hbyte
      | some b => exact hsome b hbyte
  refine ⟨fun hasleep => ?_, fun hawake => ⟨?_, ?_⟩, fun hawake hrelease hedge => ?_⟩
  · rw [step_idle hpending]
    simp only [idle, hasleep, Bool.false_eq_true, if_false, Pins.sampleReset_eq]
    rfl
  · rw [State.cpTx, if_pos hawake, FramePath.cpHead]
    cases s.frames.inbound with
    | nil => rfl
    | cons f rest => exact hlevel f.bytes s.frames.cpTicks
  · rw [State.spTx, if_pos hawake, FramePath.spHead]
    cases s.frames.outbound with
    | nil => rfl
    | cons f rest =>
      cases hhandled : f.handled with
      | false => simp [hhandled, laneLevel]
      | true => simp only [hhandled, if_true]; exact hlevel f.run.bytes s.frames.spTicks
  refine ⟨_, (step_idle hpending).trans (congrArg _ (idle_tick hawake hrelease hedge)), s.cycle.tick_eq, s.pins.tick_eq, ?_⟩
  have hnext : (advanceTimers s).commands.next = s.commands.next := rfl
  have hphase : (advanceTimers s).pins.phase = s.pins.phase := s.pins.tick_fields.1
  refine ⟨resetEntry_due _, hphase ▸ initialisationEnd_due (advanceTimers s), closeDeadlineExpiry_due (advanceTimers s), ?_, ?_, ?_, ?_, ?_, by simp, by simp, by simp,
    by simp, by simp, by simp, s.commands.tick_eq, ?_⟩
  · refine (periodMaximumExpiry_due _).trans ?_
    rw [isSupervised_iff, and_assoc]
    exact Iff.rfl
  · intro before q after hslots hbefore kind
    simp only [hexecuting]
    refine (commandFor_due _ kind).trans ?_
    rw [hnext, CommandUnit.next_of_split hslots hbefore]
    simp only [Option.some.injEq, exists_eq_left']
    exact Iff.rfl
  · intro hall kind hdue
    rw [hexecuting] at hdue
    obtain ⟨q, hq, -⟩ := (commandFor_due _ kind).mp hdue
    rw [hnext, CommandUnit.next_of_pending hall] at hq
    cases hq
  · refine (frameSentCp_due _).trans ⟨?_, ?_⟩
    · rintro ⟨bytes, hhead, hticks⟩
      obtain ⟨f, rest, hinbound, rfl⟩ := (FramePath.cpHead_iff _ _).mp hhead
      exact ⟨f, rest, hinbound, hticks⟩
    · rintro ⟨f, rest, hinbound, hticks⟩
      exact ⟨f.bytes, (FramePath.cpHead_iff _ _).mpr ⟨f, rest, hinbound, rfl⟩, hticks⟩
  · refine (frameSentSp_due _).trans ⟨?_, ?_⟩
    · rintro ⟨bytes, hhead, hticks⟩
      obtain ⟨f, rest, houtbound, hhandled, rfl⟩ := (FramePath.spHead_iff _ _).mp hhead
      exact ⟨f, rest, houtbound, hhandled, hticks⟩
    · rintro ⟨f, rest, houtbound, hhandled, hticks⟩
      exact ⟨f.run.bytes, (FramePath.spHead_iff _ _).mpr ⟨f, rest, houtbound, hhandled, rfl⟩, hticks⟩
  · have hcp : advanceLane s.frames.cpHead s.frames.cpTicks = if s.frames.inbound = [] then 0 else s.frames.cpTicks + 1 := by
      rw [FramePath.cpHead]
      cases s.frames.inbound <;> simp [advanceLane]
    refine (congrArg (fun cpTicks => { s.frames.tick with cpTicks }) hcp).trans ?_
    simp only [FramePath.tick, FramePath.spHead]
    cases s.frames.outbound with
    | nil => rfl
    | cons f rest => cases hhandled : f.handled <;> simp [hhandled, advanceLane]

end Sys2Proof.Machine
end

section
/-! PROOF. The start of a cycle with a commit or a mode change pending (R84, R145 to R152). -/

namespace Sys2Proof.Machine

/-! ## The identity of a slot and of an entry (R68, R146) -/

theorem sameSlotIdentity_iff (old new : SlotRecord) : sameSlotIdentity old new = true ↔
    old.configured = new.configured ∧ (new.configured = true → old.node = new.node ∧ old.subchannel = new.subchannel ∧
      old.kind = new.kind ∧ old.resolution = new.resolution) := by
  cases h : new.configured <;> simp [sameSlotIdentity, h]

theorem sameEntryIdentity_iff (old new : EntryRecord) : sameEntryIdentity old new = true ↔
    new = { old with priority := new.priority, mask := new.mask } := by
  obtain ⟨used, slot, form, lo, hi, hysteresis, mode, priority, mask⟩ := new
  simp only [sameEntryIdentity, decide_eq_true_eq, EntryRecord.mk.injEq, and_true]
  exact ⟨fun ⟨h1, h2, h3, h4, h5, h6, h7⟩ => ⟨h1.symm, h2.symm, h3.symm, h4.symm, h5.symm, h6.symm, h7.symm⟩,
    fun ⟨h1, h2, h3, h4, h5, h6, h7⟩ => ⟨h1.symm, h2.symm, h3.symm, h4.symm, h5.symm, h6.symm, h7.symm⟩⟩

theorem hasConfigured_iff (b : Bank) : b.hasConfigured = true ↔ ∃ i : Fin 32, b.slots[i].configured = true := by
  simp [Bank.hasConfigured]

/-! ## What a swap carries over (R145 to R149) -/

section
variable {old new : SlotRecord} (d : SlotState)

theorem carrySlot_of_changed (h : ¬sameSlotIdentity old new = true) : carrySlot old new d =
    { d.restartIn (if new.configured then .acquiring else .unused) with validTotal := 0 } := if_neg h

theorem carrySlot_of_unconfigured (h : sameSlotIdentity old new = true) (hconfigured : new.configured = false) :
    carrySlot old new d = d := (if_pos h).trans (if_neg (by simp [hconfigured]))

theorem carrySlot_of_kept (h : sameSlotIdentity old new = true) (hconfigured : new.configured = true) :
    carrySlot old new d = keepSlot old new d := (if_pos h).trans (if_pos hconfigured)

/-- A kept slot, the four counts read one by one. -/
theorem keepSlot_eq_ite (old new : SlotRecord) : keepSlot old new d =
    if d.health = .suspect ∧ (clampedSlot old new d).missing = 0 ∧ (clampedSlot old new d).envelope = 0 ∧
        (clampedSlot old new d).rate = 0 ∧ (clampedSlot old new d).mismatch = 0 then
      { clampedSlot old new d with health := .tracking }
    else clampedSlot old new d := by
  simp only [keepSlot_eq, SlotState.quiet, decide_eq_true_eq]

theorem carrySlot_indication (old new : SlotRecord) : (carrySlot old new d).indication = d.indication := by
  unfold carrySlot
  split_ifs
  · rw [keepSlot_eq]
    split_ifs <;> rfl
  · rfl
  · rfl
  · rfl

theorem carryStandby_indication (old new : SlotRecord) : (carryStandby old new d).indication = d.indication := by
  unfold carryStandby
  split_ifs <;> rfl

end

/-- The HEALTH record of a change, every change but one within the pair without NOTE_SUSPECT (R46). -/
theorem healthRecord_eq_ite (r : SlotRecord) (i : Fin 32) (left entered : Health) (cause : RecordCause) :
    healthRecord r i left entered cause =
      if left ≠ entered ∧ ¬(r.noteSuspect = false ∧ left.inPair = true ∧ entered.inPair = true) then
        [(3, .health i left.name entered.name cause)] else [] := by
  have hposts : changePosts r.noteSuspect left entered = true ↔
      left ≠ entered ∧ ¬(r.noteSuspect = false ∧ left.inPair = true ∧ entered.inPair = true) := by
    cases r.noteSuspect <;> simp [changePosts, imp_iff_not_or]
  simp only [healthRecord, hposts]

/-- The record of an entry at a swap is that of its latch transition when it keeps its identity (R68, R69). -/
theorem carryRecord_eq (old new : EntryRecord) (left : Fin 32 → Bool) (j : Fin 64) (e : EntryState) :
    carryRecord old new left j e =
      if new = { old with priority := new.priority, mask := new.mask } then
        new.transition j 0 true e.latch (carryEntry old new left e).latch
      else if e.latch = .idle then [] else [(2, .entryReset j e.latch)] := by
  unfold carryRecord carryEntry
  simp only [sameEntryIdentity_iff]
  by_cases hsame : new = { old with priority := new.priority, mask := new.mask }
  · simp only [if_pos hsame]
    split_ifs
    · obtain ⟨condition, latch⟩ := e
      cases latch <;> rfl
    · cases e.latch <;> rfl
  · simp only [if_neg hsame]

section
variable {s : State} {tag : Byte} (h : s.config.pendingCommit = some tag)
include h

/-- A swap in STANDBY posts nothing. -/
theorem swapBanks_queue_standby (hmode : s.config.mode = .standby) : (swapBanks s).queue = s.queue := by
  unfold swapBanks
  rw [h]
  simp [carryBanks, hmode]

/-- A swap in MONITOR posts the HEALTH records and those of the entries, in that order. -/
theorem swapBanks_queue_monitor (hmode : s.config.mode = .monitor) : (swapBanks s).queue =
    s.queue.postEach s.cycleNumber (swapSlotRecords s.shadowBank s.slot (swapBanks s).slot ++
      (List.finRange 64).flatMap fun j => carryRecord s.activeBank.entries[j] s.shadowBank.entries[j]
        (leavers s.slot (swapBanks s).slot) j (s.entry j)) := by
  have hslots : (swapBanks s).slot = fun i => carrySlot s.activeBank.slots[i] s.shadowBank.slots[i] (s.slot i) := by
    funext i
    rw [swapBanks_slot h, hmode]
  rw [hslots]
  unfold swapBanks
  rw [h]
  simp only [completeCommit_keeps, carryBanks, State.withConfig_config, hmode, settleLines_keeps, carryOver]
  rw [postAll_postEach]
  simp [State.cycleNumber]
  rfl

end

/-- A swap keeps the indications, the mode and what is pending of the mode. -/
theorem swapBanks_indication (s : State) (i : Fin 32) :
    ((swapBanks s).slot i).indication = (s.slot i).indication := by
  cases hpending : s.config.pendingCommit with
  | none => rw [swapBanks_none hpending]
  | some tag =>
    rw [swapBanks_slot hpending]
    cases s.config.mode
    · exact carryStandby_indication _ _ _
    · exact carrySlot_indication _ _ _

theorem swapBanks_mode (s : State) :
    (swapBanks s).config.mode = s.config.mode ∧ (swapBanks s).config.pendingMode = s.config.pendingMode := by
  cases hpending : s.config.pendingCommit with
  | none => rw [swapBanks_none hpending]; exact ⟨rfl, rfl⟩
  | some tag => rw [swapBanks_config hpending]; exact ⟨rfl, rfl⟩

/-! ## A mode change (R47, R48, R151) -/

theorem modeToBe_none {s : State} (h : s.config.pendingMode = none) : s.modeToBe = s.config.mode := by
  simp only [State.modeToBe, h]

theorem modeToBe_standby {s : State} {tag : Byte} (h : s.config.pendingMode = some (.standby, tag)) :
    s.modeToBe = .standby := by
  simp only [State.modeToBe, h]

theorem modeToBe_monitor {s : State} {tag : Byte} (h : s.config.pendingMode = some (.monitor, tag)) :
    s.modeToBe = if ∃ i : Fin 32, (s.slotRecord i).configured = true then .monitor else s.config.mode := by
  simp only [State.modeToBe, h, hasConfigured_iff]
  rfl

/-- An indication that is clear stays clear. -/
theorem applyMode_indication {s : State} (h : ∀ i, (s.slot i).indication = false) (i : Fin 32) :
    ((applyMode s).slot i).indication = false := by
  obtain ⟨-, hslots, -⟩ | ⟨-, hslots, -⟩ | ⟨-, hslots, -⟩ := applyMode_cases s <;> rw [hslots]
  exact h i

/-! ## The phases before the start (R79 to R83) -/

/-- No phase before the start counts the OPEN. -/
theorem beforeStart_opensTaken (o : OpenBody) (s : State) :
    (s.beforeStart o).cycle.counters.opensTaken = s.cycle.counters.opensTaken := by
  have hresume : ∀ u, (resume o.cycle u).cycle.counters.opensTaken = u.cycle.counters.opensTaken := fun u => by
    unfold resume
    split_ifs <;> simp
  have hnumber : ∀ arrival u, (checkNumber arrival o.cycle u).cycle.counters.opensTaken = u.cycle.counters.opensTaken := by
    intro arrival u
    unfold checkNumber
    dsimp only
    split_ifs <;> simp [countCycle]
  have hperiod : ∀ arrival u, (checkPeriod arrival u).cycle.counters.opensTaken = u.cycle.counters.opensTaken := by
    intro arrival u
    unfold checkPeriod
    dsimp only
    split_ifs <;> simp [countCycle]
  have hovertake : ∀ u, (overtake u).cycle.counters.opensTaken = u.cycle.counters.opensTaken := fun u => by
    unfold overtake
    split_ifs <;> simp [countCycle]
  rw [State.beforeStart, hresume, hnumber, hperiod, hovertake, (applyAcks_keeps o.acks s).2.1]

/-- From a link that is not OPEN the acknowledgement alone reaches the Report Builder and the Command Unit. -/
theorem beforeStart_acks {s : State} (o : OpenBody) (hlink : s.cycle.link ≠ .opened) :
    (s.beforeStart o).reports = (applyAcks o.acks s).reports ∧
    (s.beforeStart o).commands = (applyAcks o.acks s).commands := by
  rw [State.beforeStart, overtake_of_not_opened (by simpa using hlink)]
  simp

/-! ## The swap at the start of a cycle (R84 step 2, R145 to R149) -/

/-- The state that the swap, if any, leaves at the start of the cycle. -/
def State.swapped (e : State) : State := swapBanks (clearIndications e)

section
variable (e : State)

@[simp] theorem clearIndications_config : (clearIndications e).config = e.config := by simp

theorem clearIndications_banks : (clearIndications e).activeBank = e.activeBank ∧
    (clearIndications e).shadowBank = e.shadowBank := by
  simp only [State.activeBank, State.shadowBank, clearIndications_config, and_self]

theorem swapped_mode : e.swapped.config.mode = e.config.mode ∧
    e.swapped.config.pendingMode = e.config.pendingMode := by
  have h := swapBanks_mode (clearIndications e)
  rwa [clearIndications_config] at h

theorem swapped_indication (i : Fin 32) : (e.swapped.slot i).indication = false := by
  rw [State.swapped, swapBanks_indication, clearIndications_slot]

theorem swapped_cycleNumber : e.swapped.cycleNumber = e.cycleNumber := by
  simp [State.swapped, State.cycleNumber]

/-- The health of the slots is all that the records and the entries of a swap read. -/
theorem leavers_clearIndications (after : Fin 32 → SlotState) :
    leavers (clearIndications e).slot after = leavers e.slot after := by
  funext i
  simp [leavers]

theorem swapSlotRecords_clearIndications (b : Bank) (after : Fin 32 → SlotState) :
    swapSlotRecords b (clearIndications e).slot after = swapSlotRecords b e.slot after := by
  simp [swapSlotRecords]

/-- Nothing pending of a commit, the swap leaves what it finds. -/
theorem swapped_of_none (h : e.config.pendingCommit = none) : e.swapped = clearIndications e :=
  swapBanks_none (by rwa [clearIndications_config])

end

section
variable {e : State} {tag : Byte} (h : e.config.pendingCommit = some tag)
include h

theorem clearIndications_pendingCommit : (clearIndications e).config.pendingCommit = some tag := by
  rwa [clearIndications_config]

/-- The banks, the roles and the generation after the swap. -/
theorem swapped_config : e.swapped.config = { e.config with
    active := e.config.active.other, generation := e.config.generation + 1, pendingCommit := none,
    lastCommit := some tag } := by
  rw [State.swapped, swapBanks_config (clearIndications_pendingCommit h), clearIndications_config]

theorem swapped_commands : e.swapped.commands = (e.commands.release RequestKind.commit.code).respond
    { tag, kind := RequestKind.commit.code, outcome := .done, reason := .none,
      data := bytes16 (e.config.generation + 1) ++ [e.config.active.other.code] } := by
  rw [State.swapped, swapBanks_commands (clearIndications_pendingCommit h), clearIndications_config]
  simp

theorem swapped_slot_standby (hmode : e.config.mode = .standby) (i : Fin 32) : e.swapped.slot i =
    carryStandby e.activeBank.slots[i] e.shadowBank.slots[i] { e.slot i with indication := false } := by
  rw [State.swapped, swapBanks_slot (clearIndications_pendingCommit h), clearIndications_config, hmode,
    (clearIndications_banks e).1, (clearIndications_banks e).2, clearIndications_slot]

theorem swapped_entry_standby (hmode : e.config.mode = .standby) (j : Fin 64) : e.swapped.entry j = e.entry j := by
  rw [State.swapped, swapBanks_entry (clearIndications_pendingCommit h), clearIndications_config, hmode]
  simp

theorem swapped_queue_standby (hmode : e.config.mode = .standby) : e.swapped.queue = e.queue := by
  rw [State.swapped, swapBanks_queue_standby (clearIndications_pendingCommit h) (by rwa [clearIndications_config])]
  simp

theorem swapped_slot_monitor (hmode : e.config.mode = .monitor) (i : Fin 32) : e.swapped.slot i =
    carrySlot e.activeBank.slots[i] e.shadowBank.slots[i] { e.slot i with indication := false } := by
  rw [State.swapped, swapBanks_slot (clearIndications_pendingCommit h), clearIndications_config, hmode,
    (clearIndications_banks e).1, (clearIndications_banks e).2, clearIndications_slot]

theorem swapped_entry_monitor (hmode : e.config.mode = .monitor) (j : Fin 64) : e.swapped.entry j =
    carryEntry e.activeBank.entries[j] e.shadowBank.entries[j] (leavers e.slot e.swapped.slot) (e.entry j) := by
  have hslots : e.swapped.slot = fun i : Fin 32 =>
      carrySlot e.activeBank.slots[i] e.shadowBank.slots[i] ((clearIndications e).slot i) := by
    funext i
    rw [swapped_slot_monitor h hmode, clearIndications_slot]
  have hentry : (clearIndications e).entry j = e.entry j := by simp
  rw [hslots, ← leavers_clearIndications, ← hentry, State.swapped, swapBanks_entry (clearIndications_pendingCommit h),
    clearIndications_config, hmode, (clearIndications_banks e).1, (clearIndications_banks e).2]

theorem swapped_queue_monitor (hmode : e.config.mode = .monitor) : e.swapped.queue =
    e.queue.postEach e.cycleNumber (swapSlotRecords e.shadowBank e.slot e.swapped.slot ++
      (List.finRange 64).flatMap fun j => carryRecord e.activeBank.entries[j] e.shadowBank.entries[j]
        (leavers e.slot e.swapped.slot) j (e.entry j)) := by
  have hentry : ∀ j, (clearIndications e).entry j = e.entry j := by simp
  have hqueue : (clearIndications e).queue = e.queue := by simp
  have hnumber : (clearIndications e).cycleNumber = e.cycleNumber := by simp [State.cycleNumber]
  have hposted := swapBanks_queue_monitor (clearIndications_pendingCommit h) (by rwa [clearIndications_config])
  rw [(clearIndications_banks e).1, (clearIndications_banks e).2, leavers_clearIndications,
    swapSlotRecords_clearIndications, hqueue, hnumber] at hposted
  simp only [hentry] at hposted
  exact hposted

end

/-! ## The carry-over of a swap as the statement names it -/

section
variable {e : State} {tag : Byte} (h : e.config.pendingCommit = some tag)
include h

theorem swapped_standby_effect (hmode : e.config.mode = .standby) (i : Fin 32) :
    (sameSlotIdentity e.activeBank.slots[i] e.shadowBank.slots[i] = true →
      e.swapped.slot i = { e.slot i with indication := false }) ∧
    (¬sameSlotIdentity e.activeBank.slots[i] e.shadowBank.slots[i] = true →
      e.swapped.slot i = { e.slot i with indication := false, validTotal := 0 }) := by
  rw [swapped_slot_standby h hmode]
  exact ⟨fun hsame => if_pos hsame, fun hchanged => if_neg hchanged⟩

theorem swapped_slot_effect (hmode : e.config.mode = .monitor) (i : Fin 32) :
    let old := e.activeBank.slots[i]
    let new := e.shadowBank.slots[i]
    let d := { e.slot i with indication := false }
    let kept := clampedSlot old new d
    (¬sameSlotIdentity old new = true → e.swapped.slot i =
      { d.restartIn (if new.configured then .acquiring else .unused) with validTotal := 0 }) ∧
    (sameSlotIdentity old new = true → new.configured = false → e.swapped.slot i = d) ∧
    (sameSlotIdentity old new = true → new.configured = true → e.swapped.slot i =
      if d.health = .suspect ∧ kept.missing = 0 ∧ kept.envelope = 0 ∧ kept.rate = 0 ∧ kept.mismatch = 0 then
        { kept with health := .tracking } else kept) := by
  intro old new d kept
  rw [swapped_slot_monitor h hmode]
  exact ⟨carrySlot_of_changed d, carrySlot_of_unconfigured d,
    fun hsame hconfigured => (carrySlot_of_kept d hsame hconfigured).trans (keepSlot_eq_ite d old new)⟩

theorem swapped_entry_effect (hmode : e.config.mode = .monitor) (j : Fin 64) :
    (¬sameEntryIdentity e.activeBank.entries[j] e.shadowBank.entries[j] = true → e.swapped.entry j = .cleared) ∧
    (sameEntryIdentity e.activeBank.entries[j] e.shadowBank.entries[j] = true → e.swapped.entry j =
      if e.shadowBank.entries[j].used = true ∧ (e.slot e.shadowBank.entries[j].slot).health.inPair = true ∧
          (e.swapped.slot e.shadowBank.entries[j].slot).health.inPair = false then (e.entry j).left
      else e.entry j) := by
  rw [swapped_entry_monitor h hmode]
  refine ⟨fun hchanged => if_neg hchanged, fun hsame => (if_pos hsame).trans ?_⟩
  rw [leaveEntry_eq_left]
  simp only [leavers, Bool.and_eq_true, Bool.not_eq_true']

theorem swapped_queue_effect (hmode : e.config.mode = .monitor) : e.swapped.queue = e.queue.postEach e.cycleNumber
    (((List.finRange 32).flatMap fun i =>
      if (e.slot i).health ≠ (e.swapped.slot i).health ∧ ¬(e.shadowBank.slots[i].noteSuspect = false ∧
          (e.slot i).health.inPair = true ∧ (e.swapped.slot i).health.inPair = true)
      then [(3, .health i (e.slot i).health.name (e.swapped.slot i).health.name .commit)] else []) ++
    ((List.finRange 64).flatMap fun j =>
      if e.shadowBank.entries[j] = { e.activeBank.entries[j] with
          priority := e.shadowBank.entries[j].priority, mask := e.shadowBank.entries[j].mask } then
        e.shadowBank.entries[j].transition j 0 true (e.entry j).latch (e.swapped.entry j).latch
      else if (e.entry j).latch = .idle then [] else [(2, .entryReset j (e.entry j).latch)])) := by
  rw [swapped_queue_monitor h hmode]
  simp only [swapSlotRecords, healthRecord_eq_ite, carryRecord_eq, ← swapped_entry_monitor h hmode]

end

theorem swapped_banks (e : State) : e.swapped.config.bankA = e.config.bankA ∧
    e.swapped.config.bankB = e.config.bankB ∧ e.swapped.config.pendingCommit = none := by
  cases hpending : e.config.pendingCommit with
  | none => simp [swapped_of_none e hpending, hpending]
  | some tag => simp [swapped_config hpending]

end Sys2Proof.Machine
end

section
/-! PROOF. An OPEN starts a cycle in any link state (R84). -/

namespace Sys2Proof.Machine

/-! ## The taking of an OPEN, by its start -/

section
variable (o : OpenBody) (s : State)

theorem takeOpen_values :
    (∀ i, (takeOpen o s).slot i = (applyMode (s.beforeStart o).swapped).slot i) ∧
    (∀ j, (takeOpen o s).entry j = (applyMode (s.beforeStart o).swapped).entry j) ∧
    (takeOpen o s).config = (applyMode (s.beforeStart o).swapped).config ∧
    (takeOpen o s).commands = (applyMode (s.beforeStart o).swapped).commands ∧
    (takeOpen o s).queue = (applyMode (s.beforeStart o).swapped).queue := startCycle_values o.cycle (s.beforeStart o)

theorem beforeStart_banks : (s.beforeStart o).activeBank = s.activeBank ∧
    (s.beforeStart o).shadowBank = s.shadowBank := by
  simp only [State.activeBank, State.shadowBank, beforeStart_config, and_self]

/-- What the mode change leaves of the configuration. -/
theorem takeOpen_config : (takeOpen o s).config = { (s.beforeStart o).swapped.config with
    mode := (s.beforeStart o).swapped.modeToBe, pendingMode := none } := by
  obtain ⟨-, -, hconfig, -⟩ := takeOpen_values o s
  rw [hconfig, applyMode_config]

theorem takeOpen_activeBank : (takeOpen o s).activeBank = (s.beforeStart o).swapped.activeBank := by
  simp only [State.activeBank, takeOpen_config]
  rfl

theorem takeOpen_slotRecord (i : Fin 32) :
    (takeOpen o s).slotRecord i = (s.beforeStart o).swapped.slotRecord i := by
  rw [State.slotRecord, takeOpen_activeBank, State.slotRecord]

/-- The cycle that starts (R84 steps 4 to 6). -/
theorem takeOpen_cycle : (takeOpen o s).cycle = { (s.beforeStart o).cycle with
    link := .opened, currentCycle := some o.cycle, periodTimer := some 0
    deadlineTimer := some (takeOpen o s).activeBank.link.closeDeadline
    counters := { (s.beforeStart o).cycle.counters with opensTaken := satInc s.cycle.counters.opensTaken } } := by
  rw [takeOpen_activeBank, takeOpen_eq, startCycle_cycle, beforeStart_opensTaken]
  simp [State.swapped]

theorem takeOpen_linesObeyLaws (h : s.isAwake = true) : (takeOpen o s).linesObeyLaws := by
  rw [takeOpen_eq]
  exact settleLines_obeys _ (by simp [openLink, State.beforeStart, h])

end

/-! ## The mode change at the start of a cycle (R47, R48, R151) -/

section
variable {u : State} {tag : Byte}

theorem applyMode_toStandby (h : u.config.pendingMode = some (.standby, tag)) :
    (∀ i, (applyMode u).slot i = { (u.slot i).restartIn .unused with indication := false }) ∧
    (∀ j, (applyMode u).entry j = .cleared) ∧
    (applyMode u).queue = u.queue.post u.cycleNumber 2 (.modeChanged u.config.mode .standby) ∧
    (applyMode u).commands = (u.commands.release RequestKind.setMode.code).respond
      { tag, kind := RequestKind.setMode.code, outcome := .done, reason := .none, data := [] } := by
  rw [applyMode_standby h]
  simp

theorem applyMode_toMonitor (h : u.config.pendingMode = some (.monitor, tag)) (hsome : u.activeBank.hasConfigured = true) :
    (∀ i, (applyMode u).slot i = { (u.slot i).restartIn
      (if (u.slotRecord i).configured then .acquiring else .unused) with indication := false }) ∧
    (∀ j, (applyMode u).entry j = u.entry j) ∧
    (applyMode u).queue = u.queue.post u.cycleNumber 2 (.modeChanged u.config.mode .monitor) ∧
    (applyMode u).commands = (u.commands.release RequestKind.setMode.code).respond
      { tag, kind := RequestKind.setMode.code, outcome := .done, reason := .none, data := [] } := by
  rw [applyMode_monitor h, if_pos hsome]
  simp

theorem applyMode_refused (h : u.config.pendingMode = some (.monitor, tag)) (hnone : ¬u.activeBank.hasConfigured = true) :
    (∀ i, (applyMode u).slot i = u.slot i) ∧ (∀ j, (applyMode u).entry j = u.entry j) ∧
    (applyMode u).queue = u.queue ∧
    (applyMode u).commands = (u.commands.release RequestKind.setMode.code).respond
      { tag, kind := RequestKind.setMode.code, outcome := .refused, reason := .emptyBank, data := [] } := by
  rw [applyMode_monitor h, if_neg hnone]
  simp

end

/-- Settles O15: the start, the acknowledgement before it, the swap, and the mode change behind it. -/
theorem openStartsCycle : Obligations.OpenStartsCycle := by
  intro s run o htakes e u restarted answered
  have hexec := exec_takesOpen htakes
  have hawake : s.isAwake = true := by simp [State.isAwake, htakes.1.1]
  have hcycle : (takeOpen o s).cycle = _ := takeOpen_cycle o s
  have hlines := takeOpen_linesObeyLaws o s hawake
  have hrecord := takeOpen_slotRecord o s
  have hconfig : (takeOpen o s).config = { u.config with mode := u.modeToBe, pendingMode := none } := takeOpen_config o s
  have hpins : (takeOpen o s).pins = s.pins := by simp
  have hreports : (takeOpen o s).reports = e.reports := by simp [takeOpen_eq, startCycle, e]
  obtain ⟨hslot, hentry, -, hcommands, hqueue⟩ := takeOpen_values o s
  have hafter : s.cycle.link ≠ .opened → e.reports = _ ∧ e.commands = _ := beforeStart_acks o
  have hstart : e.config = s.config := beforeStart_config o s
  obtain ⟨hactive, hshadow⟩ : e.activeBank = s.activeBank ∧ e.shadowBank = s.shadowBank := beforeStart_banks o s
  have hu : u = e.swapped := rfl
  change ∀ i, (takeOpen o s).slotRecord i = u.slotRecord i at hrecord
  change ∀ i, (takeOpen o s).slot i = (applyMode u).slot i at hslot
  change ∀ j, (takeOpen o s).entry j = (applyMode u).entry j at hentry
  change (takeOpen o s).commands = (applyMode u).commands at hcommands
  change (takeOpen o s).queue = (applyMode u).queue at hqueue
  clear_value u e
  generalize takeOpen o s = t at *
  subst hu
  obtain ⟨hmode, hpendingMode⟩ := swapped_mode e
  have hbanks : t.config.bankA = s.config.bankA ∧ t.config.bankB = s.config.bankB ∧ t.config.pendingCommit = none := by
    rw [hconfig, ← hstart]
    exact swapped_banks e
  rw [hstart] at hmode hpendingMode
  have hfind : (∃ i : Fin 32, (t.slotRecord i).configured = true) ↔ e.swapped.activeBank.hasConfigured = true := by
    simp only [hrecord, hasConfigured_iff]
    rfl
  obtain ⟨hbankA, hbankB, hpendingCommit⟩ := hbanks
  refine ⟨_, hexec, by simp [hcycle], by simp [hcycle], by simp [hcycle], by simp [hcycle], by simp [hcycle],
    fun i => (hslot i).symm ▸ applyMode_indication (swapped_indication e) i, rfl, hbankA, hbankB, hpendingCommit,
    by simp [hconfig], ?keptConfig, ?swappedConfig, ?keptMode, ?standby, ?monitor, hpins, ?lines, hreports, ?acks,
    ?unswapped, ?swap, ?unchanged, ?change⟩
  case keptConfig =>
    intro hnone
    simp [hconfig, swapped_of_none e (hstart ▸ hnone), hstart]
  case swappedConfig =>
    intro tag hsome
    simp [hconfig, swapped_config (hstart ▸ hsome), hstart]
  case keptMode =>
    intro hnone
    simp [hconfig, modeToBe_none (hpendingMode.trans hnone), hmode]
  case standby =>
    intro tag hsome
    simp [hconfig, modeToBe_standby (hpendingMode.trans hsome)]
  case monitor =>
    intro tag hsome
    change t.config.mode = if ∃ i : Fin 32, (t.slotRecord i).configured = true then .monitor else s.config.mode
    rw [hconfig]
    simp only [modeToBe_monitor (hpendingMode.trans hsome), hrecord, hmode]
  case lines =>
    exact hlines.congr rfl rfl rfl rfl (fun _ => rfl) (fun _ => rfl) Iff.rfl
  case acks =>
    intro hlink
    obtain ⟨hsent, hcredits⟩ := hafter hlink
    rw [hsent, hcredits]
    exact applyAcks_effect o.acks s
  case unswapped =>
    intro hnone
    simp [swapped_of_none e (hstart ▸ hnone)]
  case swap =>
    intro tag hsome old new same sameEntry
    have hpending : e.config.pendingCommit = some tag := hstart ▸ hsome
    have hsame : ∀ i, sameSlotIdentity e.activeBank.slots[i] e.shadowBank.slots[i] = true ↔ same i := fun i => by
      rw [hactive, hshadow]
      exact sameSlotIdentity_iff _ _
    have hsameEntry : ∀ j, sameEntryIdentity e.activeBank.entries[j] e.shadowBank.entries[j] = true ↔ sameEntry j :=
      fun j => by
        rw [hactive, hshadow]
        exact sameEntryIdentity_iff _ _
    refine ⟨(swapped_commands hpending).trans (by rw [hstart]; rfl), fun hmode => ?_, fun hmode => ?_⟩
    · rw [← hstart] at hmode
      refine ⟨fun i => ?_, swapped_entry_standby hpending hmode, swapped_queue_standby hpending hmode⟩
      rw [← hsame]
      exact swapped_standby_effect hpending hmode i
    · rw [← hstart] at hmode
      refine ⟨fun i => ?_, fun j => ?_, ?_⟩
      · intro d r below kept
        rw [← hsame]
        have heffect := swapped_slot_effect hpending hmode i
        rw [hactive, hshadow] at heffect ⊢
        exact heffect
      · intro k
        rw [← hsameEntry]
        have heffect := swapped_entry_effect hpending hmode j
        rw [hshadow] at heffect ⊢
        exact heffect
      · have heffect := swapped_queue_effect hpending hmode
        rw [hactive, hshadow] at heffect
        exact heffect
  case unchanged =>
    intro hnone
    have happly : applyMode e.swapped = e.swapped := applyMode_none (hpendingMode.trans hnone)
    rw [happly] at hslot hentry hcommands hqueue
    exact ⟨hslot, hentry, hqueue, hcommands⟩
  case change =>
    intro target tag hsome changed completed
    have hpending := hpendingMode.trans hsome
    refine ⟨?_, ?_, ?_⟩
    · rintro rfl
      obtain ⟨hslots, hentries, hposted, hanswered⟩ := applyMode_toStandby hpending
      rw [hmode, swapped_cycleNumber] at hposted
      exact ⟨fun i => (hslot i).trans (hslots i), fun j => (hentry j).trans (hentries j), hqueue.trans hposted,
        hcommands.trans hanswered⟩
    · rintro rfl hfound
      obtain ⟨hslots, hentries, hposted, hanswered⟩ := applyMode_toMonitor hpending (hfind.1 hfound)
      rw [hmode, swapped_cycleNumber] at hposted
      simp only [← hrecord] at hslots
      exact ⟨fun i => (hslot i).trans (hslots i), fun j => (hentry j).trans (hentries j), hqueue.trans hposted,
        hcommands.trans hanswered⟩
    · rintro rfl hnot
      have hnone : ¬e.swapped.activeBank.hasConfigured = true := fun hhas => by
        obtain ⟨i, hi⟩ := hfind.2 hhas
        exact Bool.false_ne_true ((hnot i).symm.trans hi)
      obtain ⟨hslots, hentries, hkept, hanswered⟩ := applyMode_refused hpending hnone
      exact ⟨fun i => (hslot i).trans (hslots i), fun j => (hentry j).trans (hentries j), hqueue.trans hkept,
        hcommands.trans hanswered⟩

end Sys2Proof.Machine
end
